-- ==== Sys2Proof/Word.lean ====
section
/-! DEFINITION. The bit vectors of the block: bytes, 16-bit operands and the 64-bit command word (00_scope.md R10; 30_encoding.md R63). -/

namespace Sys2Proof

/-- A byte of the frame, or an 8-bit operand; bit 0 is the least significant (00_scope.md R10). -/
abbrev Byte := BitVec 8

/-- A 16-bit operand or scalar result (30_encoding.md R63, 10_state.md R28). -/
abbrev Word16 := BitVec 16

/-- The command word `W` (30_encoding.md R63). -/
abbrev CmdWord := BitVec 64

/-- `NUL`, the terminator of a string operand (00_scope.md R12). -/
abbrev nul : Byte := 0x00#8

end Sys2Proof
end

