-- ==== Sys2Proof/Config.lean ====
section
/-! DEFINITION. What an implementation fixes (FRAME_MAX), the radio's opaque answer types, and the free values no source fixes (00_scope.md R6, R9; 10_state.md R24, R30, R35). -/

namespace Sys2Proof

/-- The implementation parameter. `FRAME_MAX` is `3 + extra`, so `3 <= FRAME_MAX <= 65535` holds of
every configuration by construction (00_scope.md R6, decision D4). -/
structure Config where
  extra : Fin 65533
deriving DecidableEq, Repr

/-- `FRAME_MAX`, the maximum total frame size in bytes including the header (00_scope.md R6). -/
def Config.frameMax (c : Config) : Nat := c.extra.val + 3

/-- The default of 00_scope.md R6: `FRAME_MAX = 240`. -/
def Config.default : Config := ⟨237⟩

/-- A status the radio returns: a token the block copies and never interprets (00_scope.md R9;
log entry 10). -/
structure RadioStatus where
  token : Nat
deriving DecidableEq, Repr, Inhabited

/-- What `getMyAddress()` returns: an uninterpreted token (00_scope.md R9; log entry 10). -/
structure RadioAddress where
  token : Nat
deriving DecidableEq, Repr, Inhabited

/-- What `getSendMode()` returns: an uninterpreted token (00_scope.md R9; log entry 10). -/
structure RadioSendMode where
  token : Nat
deriving DecidableEq, Repr, Inhabited

/-- What `readData` returns: a length `n` with `|bytes| = n` when `n >= 1` (47_framer.md R207). The
shape holds by construction (log entry 11). -/
inductive Received where
  /-- a non-positive length, `n = -deficit` -/
  | nothing (deficit : Nat)
  /-- a positive length: the header byte and the body bytes after it -/
  | frame (first : Byte) (rest : List Byte)
deriving DecidableEq, Repr, Inhabited

/-- The length `n` that `readData` reports. -/
def Received.length : Received → Int
  | .nothing deficit => -(deficit : Int)
  | .frame _ rest => (rest.length : Int) + 1

/-- The bytes that `readData` delivers. -/
def Received.bytes : Received → List Byte
  | .nothing _ => []
  | .frame first rest => first :: rest

/-- What the radio would answer to one call, whichever call it is (10_state.md R30). -/
structure RadioAnswer where
  status   : RadioStatus
  address  : RadioAddress
  sendMode : RadioSendMode
  received : Received
deriving DecidableEq, Repr, Inhabited

/-- FREE VALUE: what the `d`-th draw of an UNWRITTEN byte reads as (10_state.md R24; log entry 3). -/
opaque Config.unwrittenByte : Nat → Byte

/-- FREE VALUE: what the radio answers at the `d`-th draw, where the state scripts no answer
(10_state.md R30; log entry 7). -/
opaque Config.radioAnswer : Nat → RadioAnswer

end Sys2Proof
end

