-- ==== Sys2Proof/Syntax.lean ====
section
/-! DEFINITION. The instruction syntax: one constructor per row of spec/opcode_table.json, with exactly the operand fields its row reads (30_encoding.md R66, R64, R61). -/

namespace Sys2Proof

/-- The header flag that FB_SET_FLAG and FB_GET_FLAG select by `A[1]` (30_encoding.md R64). -/
inductive Flag where
  /-- RR, header bit 3; selector 0 -/
  | responseRequested
  /-- FRAG, header bit 4; selector 1 -/
  | fragmented
deriving DecidableEq, Repr

/-- The rows of the opcode table. `str` is the byte-string operand `S`. -/
inductive Instr where
  -- Frame buffer (41_frame_buffer.md)
  | fbInit
  | fbSetType (tag : BitVec 3)
  | fbGetType
  | fbSetFlag (sel : Flag) (value : Bool)
  | fbGetFlag (sel : Flag)
  | fbBodyRead (index : Word16)
  | fbBodyWrite (index : Word16) (value : Byte)
  | fbResetLength (n : Word16)
  | fbWireLength
  -- Data codec (42_data.md)
  | dataInit
  | dataSet (str : List Byte)
  | dataGet
  | dataGetLength
  | dataSetFragmented (value : Bool)
  | dataIsFragmented
  -- Command codec (43_command.md)
  | cmdInit
  | cmdSetCode (cmd : Byte)
  | cmdGetCode
  | cmdSetParam (str : List Byte)
  | cmdGetParam
  | cmdGetParamLength
  | cmdEnableAckRequest
  | cmdSetResponseRequested (value : Bool)
  | cmdIsResponseRequested
  -- Ack codec (44_ack.md)
  | ackInit
  | ackSetCode (cmd : Byte)
  | ackGetCode
  | ackSetResponse (str : List Byte)
  | ackGetResponse
  | ackGetResponseLength
  -- Notice codec (45_notice.md)
  | ntcInit
  | ntcSet (str : List Byte)
  | ntcGet
  | ntcGetLength
  -- Packet dispatch (46_dispatch.md)
  | pktResolve
  -- Packet framer (47_framer.md)
  | txSend (panId dst : Word16)
  | txSendData (panId dst : Word16) (fragment : Bool) (str : List Byte)
  | txSendCommand (panId dst : Word16) (cmd : Byte) (str : List Byte)
  | txSendCommandWithAck (panId dst : Word16) (cmd : Byte) (str : List Byte)
  | txSendAck (panId dst : Word16) (cmd : Byte) (str : List Byte)
  | txSendNotice (panId dst : Word16) (str : List Byte)
  | rxListen
  -- Radio pass-through (48_radio_passthrough.md)
  | radioInit
  | radioBegin (channel : Byte) (panId rate : Word16) (power : Byte)
  | radioEnd
  | radioRxEnable
  | radioRxDisable
  | radioGetSendMode
  | radioSetSendMode (addrType txRetry : Byte)
  | radioSetAckReq (value : Bool)
  | radioSetBroadcastEnb (value : Bool)
  | radioSetPromiscuous (value : Bool)
  | radioGetMyAddress
  -- Header-tag rows (30_encoding.md R61): the header byte's tag class, with the bits it ignores
  | hdrTagData (rr frag : Bool) (unused : BitVec 3)
  | hdrTagCommand (rr frag : Bool) (unused : BitVec 3)
  | hdrTagAck (rr frag : Bool) (unused : BitVec 3)
  | hdrTagNotice (rr frag : Bool) (unused : BitVec 3)
  | hdrTagReserved (tag : BitVec 3) (rr frag : Bool) (unused : BitVec 3)
deriving DecidableEq, Repr

/-- One command as the host presents it: the word `W` and the byte string `S` (30_encoding.md R63). -/
structure Command where
  word : CmdWord
  str  : List Byte
deriving DecidableEq, Repr

/-- The two encodings of the block (30_encoding.md, opening): a command, or a frame header byte. -/
inductive Encoded where
  | command (c : Command)
  | header (h : Byte)
deriving DecidableEq, Repr

/-! Pseudo-instructions (30_encoding.md R71): other spellings, no operations of their own. -/

/-- `FB_SET_RR b` (30_encoding.md R71). -/
abbrev Instr.fbSetRR (b : Bool) : Instr := .fbSetFlag .responseRequested b

/-- `FB_SET_FRAG b` (30_encoding.md R71). -/
abbrev Instr.fbSetFrag (b : Bool) : Instr := .fbSetFlag .fragmented b

/-- `FB_GET_RR` (30_encoding.md R71). -/
abbrev Instr.fbGetRR : Instr := .fbGetFlag .responseRequested

/-- `FB_GET_FRAG` (30_encoding.md R71). -/
abbrev Instr.fbGetFrag : Instr := .fbGetFlag .fragmented

end Sys2Proof
end

