-- ==== Sys2Proof/WellFormed.lean ====
section
/-! DEFINITION. Which instruction terms some encoding stands for. Every operand type has its field's width, so one check is left: the reserved header row holds a reserved tag. -/

namespace Sys2Proof

/-- A term is well formed when some word or header byte decodes to it. The reserved header-tag row is
TYPE 4..7 (30_encoding.md R61); every other operand's type is exactly its field. -/
def Instr.wellFormed : Instr → Bool
  | .hdrTagReserved tag _ _ _ => decide (4 ≤ tag.toNat)
  | _ => true

end Sys2Proof
end

