-- ==== Sys2Proof/Decode.lean ====
section
/-! DEFINITION. The decoder of command words and of the frame header byte, total on every word and every byte, and after it the encoder (30_encoding.md R60, R61, R63 to R68). -/

namespace Sys2Proof

/-! ## Fields of a command word (30_encoding.md R63) -/

/-- `OP`, bits 7:0. -/
def Command.op (c : Command) : Byte := c.word.extractLsb' 0 8

/-- `A`, bits 15:8. -/
def Command.a (c : Command) : Byte := c.word.extractLsb' 8 8

/-- `P`, bits 31:16. -/
def Command.p (c : Command) : Word16 := c.word.extractLsb' 16 16

/-- `Q`, bits 47:32. -/
def Command.q (c : Command) : Word16 := c.word.extractLsb' 32 16

/-- `R`, bits 55:48. -/
def Command.r (c : Command) : Byte := c.word.extractLsb' 48 8

/-- The reserved byte, bits 63:56. -/
def Command.reserved (c : Command) : Byte := c.word.extractLsb' 56 8

/-- A boolean operand is `A[0]` (30_encoding.md R64). -/
def boolOf (a : Byte) : Bool := a.getLsbD 0

/-- The flag selector is `A[1]`: 0 selects RR, 1 selects FRAG (30_encoding.md R64). -/
def flagOf (a : Byte) : Flag := if a.getLsbD 1 then .fragmented else .responseRequested

/-! ## Decoding a command (30_encoding.md R66 to R68) -/

/-- Why a command word is illegal (30_encoding.md R68). -/
inductive IllegalOp where
  /-- `OP` is not in the table of R66 -/
  | unassignedOp (op : Byte)
  /-- `W[63:56]` is not zero -/
  | reservedByte (b : Byte)
deriving DecidableEq, Repr

/-- The cause value that ILLEGAL_OP records: `W[7:0]` if the OP is unassigned, else `W[63:56]`
(30_encoding.md R68). -/
def IllegalOp.info : IllegalOp → Int
  | .unassignedOp op => op.toNat
  | .reservedByte b => b.toNat

/-- The operation map: the row that `OP` selects, with the fields that row reads (30_encoding.md R66). -/
def decodeRow (c : Command) : Option Instr :=
  match c.op.toNat with
  | 0x01 => some .fbInit
  | 0x02 => some (.fbSetType (c.a.extractLsb' 0 3))
  | 0x03 => some .fbGetType
  | 0x04 => some (.fbSetFlag (flagOf c.a) (boolOf c.a))
  | 0x05 => some (.fbGetFlag (flagOf c.a))
  | 0x06 => some (.fbBodyRead c.p)
  | 0x07 => some (.fbBodyWrite c.p c.a)
  | 0x08 => some (.fbResetLength c.p)
  | 0x09 => some .fbWireLength
  | 0x10 => some .dataInit
  | 0x11 => some (.dataSet c.str)
  | 0x12 => some .dataGet
  | 0x13 => some .dataGetLength
  | 0x14 => some (.dataSetFragmented (boolOf c.a))
  | 0x15 => some .dataIsFragmented
  | 0x20 => some .cmdInit
  | 0x21 => some (.cmdSetCode c.a)
  | 0x22 => some .cmdGetCode
  | 0x23 => some (.cmdSetParam c.str)
  | 0x24 => some .cmdGetParam
  | 0x25 => some .cmdGetParamLength
  | 0x26 => some .cmdEnableAckRequest
  | 0x27 => some (.cmdSetResponseRequested (boolOf c.a))
  | 0x28 => some .cmdIsResponseRequested
  | 0x30 => some .ackInit
  | 0x31 => some (.ackSetCode c.a)
  | 0x32 => some .ackGetCode
  | 0x33 => some (.ackSetResponse c.str)
  | 0x34 => some .ackGetResponse
  | 0x35 => some .ackGetResponseLength
  | 0x40 => some .ntcInit
  | 0x41 => some (.ntcSet c.str)
  | 0x42 => some .ntcGet
  | 0x43 => some .ntcGetLength
  | 0x50 => some .pktResolve
  | 0x60 => some (.txSend c.p c.q)
  | 0x61 => some (.txSendData c.p c.q (boolOf c.a) c.str)
  | 0x62 => some (.txSendCommand c.p c.q c.a c.str)
  | 0x63 => some (.txSendCommandWithAck c.p c.q c.a c.str)
  | 0x64 => some (.txSendAck c.p c.q c.a c.str)
  | 0x65 => some (.txSendNotice c.p c.q c.str)
  | 0x66 => some .rxListen
  | 0x70 => some .radioInit
  | 0x71 => some (.radioBegin c.a c.p c.q c.r)
  | 0x72 => some .radioEnd
  | 0x73 => some .radioRxEnable
  | 0x74 => some .radioRxDisable
  | 0x75 => some .radioGetSendMode
  | 0x76 => some (.radioSetSendMode c.a c.r)
  | 0x77 => some (.radioSetAckReq (boolOf c.a))
  | 0x78 => some (.radioSetBroadcastEnb (boolOf c.a))
  | 0x79 => some (.radioSetPromiscuous (boolOf c.a))
  | 0x7A => some .radioGetMyAddress
  | _ => none

/-- Decode of a command: by `OP` alone, together with the reserved-byte check; an unassigned `OP` is
reported first (30_encoding.md R67, R68). -/
def decodeCommand (c : Command) : Except IllegalOp Instr :=
  match decodeRow c with
  | none => .error (.unassignedOp c.op)
  | some i => if c.reserved = 0 then .ok i else .error (.reservedByte c.reserved)

/-! ## The frame header byte (30_encoding.md R60, R61) -/

/-- `TYPE = hdr[2:0]`. -/
def headerType (h : Byte) : BitVec 3 := h.extractLsb' 0 3

/-- `RR = hdr[3]`. -/
def headerRR (h : Byte) : Bool := h.getLsbD 3

/-- `FRAG = hdr[4]`. -/
def headerFrag (h : Byte) : Bool := h.getLsbD 4

/-- The unused bits `hdr[7:5]`. -/
def headerUnused (h : Byte) : BitVec 3 := h.extractLsb' 5 3

/-- The type-tag decode table: every header byte selects one row (30_encoding.md R60, R61). -/
def decodeHeader (h : Byte) : Instr :=
  match (headerType h).toNat with
  | 0 => .hdrTagData (headerRR h) (headerFrag h) (headerUnused h)
  | 1 => .hdrTagCommand (headerRR h) (headerFrag h) (headerUnused h)
  | 2 => .hdrTagAck (headerRR h) (headerFrag h) (headerUnused h)
  | 3 => .hdrTagNotice (headerRR h) (headerFrag h) (headerUnused h)
  | _ => .hdrTagReserved (headerType h) (headerRR h) (headerFrag h) (headerUnused h)

/-- Decode of either encoding. -/
def decode : Encoded → Except IllegalOp Instr
  | .command c => decodeCommand c
  | .header h => .ok (decodeHeader h)

/-- The decoder on a word of the opcode table. A row of `nbits <= 8` is a header-tag row and its word a
header byte; every other row is a command word, with `S` empty (log entry 13). -/
def decodeTableWord (nbits w : Nat) : Option Instr :=
  if nbits ≤ 8 then
    if w < 256 then some (decodeHeader (BitVec.ofNat 8 w)) else none
  else if w < 2 ^ 64 then (decodeCommand ⟨BitVec.ofNat 64 w, []⟩).toOption
  else none

/-! ## Encoding -/

/-- `W = OP | (A << 8) | (P << 16) | (Q << 32) | (R << 48)` (30_encoding.md R63). -/
def packWord (op a : Byte) (p q : Word16) (r : Byte) : CmdWord :=
  op.setWidth 64 ||| (a.setWidth 64 <<< 8) ||| (p.setWidth 64 <<< 16) |||
    (q.setWidth 64 <<< 32) ||| (r.setWidth 64 <<< 48)

/-- A boolean as the byte 0 or 1. -/
def ofBool (b : Bool) : Byte := if b then 0x01 else 0x00

/-- The flag selector in place, `A[1]`. -/
def flagSelector : Flag → Byte
  | .responseRequested => 0x00
  | .fragmented => 0x02

/-- The header byte of a type, two flags and the unused bits. With the unused bits zero it is
`(type & 0b111) | (response_requested << 3) | (fragmented << 4)` (30_encoding.md R60). -/
def packHeader (type : BitVec 3) (rr frag : Bool) (unused : BitVec 3) : Byte :=
  type.setWidth 8 ||| (ofBool rr <<< 3) ||| (ofBool frag <<< 4) ||| (unused.setWidth 8 <<< 5)

/-- The words of an instruction, every field it does not read zero (30_encoding.md R60, R63, R66). -/
def encode : Instr → Encoded
  | .fbInit => .command ⟨packWord 0x01 0 0 0 0, []⟩
  | .fbSetType tag => .command ⟨packWord 0x02 (tag.setWidth 8) 0 0 0, []⟩
  | .fbGetType => .command ⟨packWord 0x03 0 0 0 0, []⟩
  | .fbSetFlag sel v => .command ⟨packWord 0x04 (flagSelector sel ||| ofBool v) 0 0 0, []⟩
  | .fbGetFlag sel => .command ⟨packWord 0x05 (flagSelector sel) 0 0 0, []⟩
  | .fbBodyRead p => .command ⟨packWord 0x06 0 p 0 0, []⟩
  | .fbBodyWrite p a => .command ⟨packWord 0x07 a p 0 0, []⟩
  | .fbResetLength p => .command ⟨packWord 0x08 0 p 0 0, []⟩
  | .fbWireLength => .command ⟨packWord 0x09 0 0 0 0, []⟩
  | .dataInit => .command ⟨packWord 0x10 0 0 0 0, []⟩
  | .dataSet str => .command ⟨packWord 0x11 0 0 0 0, str⟩
  | .dataGet => .command ⟨packWord 0x12 0 0 0 0, []⟩
  | .dataGetLength => .command ⟨packWord 0x13 0 0 0 0, []⟩
  | .dataSetFragmented v => .command ⟨packWord 0x14 (ofBool v) 0 0 0, []⟩
  | .dataIsFragmented => .command ⟨packWord 0x15 0 0 0 0, []⟩
  | .cmdInit => .command ⟨packWord 0x20 0 0 0 0, []⟩
  | .cmdSetCode a => .command ⟨packWord 0x21 a 0 0 0, []⟩
  | .cmdGetCode => .command ⟨packWord 0x22 0 0 0 0, []⟩
  | .cmdSetParam str => .command ⟨packWord 0x23 0 0 0 0, str⟩
  | .cmdGetParam => .command ⟨packWord 0x24 0 0 0 0, []⟩
  | .cmdGetParamLength => .command ⟨packWord 0x25 0 0 0 0, []⟩
  | .cmdEnableAckRequest => .command ⟨packWord 0x26 0 0 0 0, []⟩
  | .cmdSetResponseRequested v => .command ⟨packWord 0x27 (ofBool v) 0 0 0, []⟩
  | .cmdIsResponseRequested => .command ⟨packWord 0x28 0 0 0 0, []⟩
  | .ackInit => .command ⟨packWord 0x30 0 0 0 0, []⟩
  | .ackSetCode a => .command ⟨packWord 0x31 a 0 0 0, []⟩
  | .ackGetCode => .command ⟨packWord 0x32 0 0 0 0, []⟩
  | .ackSetResponse str => .command ⟨packWord 0x33 0 0 0 0, str⟩
  | .ackGetResponse => .command ⟨packWord 0x34 0 0 0 0, []⟩
  | .ackGetResponseLength => .command ⟨packWord 0x35 0 0 0 0, []⟩
  | .ntcInit => .command ⟨packWord 0x40 0 0 0 0, []⟩
  | .ntcSet str => .command ⟨packWord 0x41 0 0 0 0, str⟩
  | .ntcGet => .command ⟨packWord 0x42 0 0 0 0, []⟩
  | .ntcGetLength => .command ⟨packWord 0x43 0 0 0 0, []⟩
  | .pktResolve => .command ⟨packWord 0x50 0 0 0 0, []⟩
  | .txSend p q => .command ⟨packWord 0x60 0 p q 0, []⟩
  | .txSendData p q v str => .command ⟨packWord 0x61 (ofBool v) p q 0, str⟩
  | .txSendCommand p q a str => .command ⟨packWord 0x62 a p q 0, str⟩
  | .txSendCommandWithAck p q a str => .command ⟨packWord 0x63 a p q 0, str⟩
  | .txSendAck p q a str => .command ⟨packWord 0x64 a p q 0, str⟩
  | .txSendNotice p q str => .command ⟨packWord 0x65 0 p q 0, str⟩
  | .rxListen => .command ⟨packWord 0x66 0 0 0 0, []⟩
  | .radioInit => .command ⟨packWord 0x70 0 0 0 0, []⟩
  | .radioBegin a p q r => .command ⟨packWord 0x71 a p q r, []⟩
  | .radioEnd => .command ⟨packWord 0x72 0 0 0 0, []⟩
  | .radioRxEnable => .command ⟨packWord 0x73 0 0 0 0, []⟩
  | .radioRxDisable => .command ⟨packWord 0x74 0 0 0 0, []⟩
  | .radioGetSendMode => .command ⟨packWord 0x75 0 0 0 0, []⟩
  | .radioSetSendMode a r => .command ⟨packWord 0x76 a 0 0 r, []⟩
  | .radioSetAckReq v => .command ⟨packWord 0x77 (ofBool v) 0 0 0, []⟩
  | .radioSetBroadcastEnb v => .command ⟨packWord 0x78 (ofBool v) 0 0 0, []⟩
  | .radioSetPromiscuous v => .command ⟨packWord 0x79 (ofBool v) 0 0 0, []⟩
  | .radioGetMyAddress => .command ⟨packWord 0x7A 0 0 0 0, []⟩
  | .hdrTagData rr frag unused => .header (packHeader 0 rr frag unused)
  | .hdrTagCommand rr frag unused => .header (packHeader 1 rr frag unused)
  | .hdrTagAck rr frag unused => .header (packHeader 2 rr frag unused)
  | .hdrTagNotice rr frag unused => .header (packHeader 3 rr frag unused)
  | .hdrTagReserved tag rr frag unused => .header (packHeader tag rr frag unused)

/-! ## Assembly (30_encoding.md R66, R70) -/

/-- The mnemonic of the row (30_encoding.md R66). -/
def mnemonic : Instr → String
  | .fbInit => "FB_INIT"
  | .fbSetType _ => "FB_SET_TYPE"
  | .fbGetType => "FB_GET_TYPE"
  | .fbSetFlag _ _ => "FB_SET_FLAG"
  | .fbGetFlag _ => "FB_GET_FLAG"
  | .fbBodyRead _ => "FB_BODY_READ"
  | .fbBodyWrite _ _ => "FB_BODY_WRITE"
  | .fbResetLength _ => "FB_RESET_LENGTH"
  | .fbWireLength => "FB_WIRE_LENGTH"
  | .dataInit => "DATA_INIT"
  | .dataSet _ => "DATA_SET"
  | .dataGet => "DATA_GET"
  | .dataGetLength => "DATA_GET_LENGTH"
  | .dataSetFragmented _ => "DATA_SET_FRAGMENTED"
  | .dataIsFragmented => "DATA_IS_FRAGMENTED"
  | .cmdInit => "CMD_INIT"
  | .cmdSetCode _ => "CMD_SET_CODE"
  | .cmdGetCode => "CMD_GET_CODE"
  | .cmdSetParam _ => "CMD_SET_PARAM"
  | .cmdGetParam => "CMD_GET_PARAM"
  | .cmdGetParamLength => "CMD_GET_PARAM_LENGTH"
  | .cmdEnableAckRequest => "CMD_ENABLE_ACK_REQUEST"
  | .cmdSetResponseRequested _ => "CMD_SET_RESPONSE_REQUESTED"
  | .cmdIsResponseRequested => "CMD_IS_RESPONSE_REQUESTED"
  | .ackInit => "ACK_INIT"
  | .ackSetCode _ => "ACK_SET_CODE"
  | .ackGetCode => "ACK_GET_CODE"
  | .ackSetResponse _ => "ACK_SET_RESPONSE"
  | .ackGetResponse => "ACK_GET_RESPONSE"
  | .ackGetResponseLength => "ACK_GET_RESPONSE_LENGTH"
  | .ntcInit => "NTC_INIT"
  | .ntcSet _ => "NTC_SET"
  | .ntcGet => "NTC_GET"
  | .ntcGetLength => "NTC_GET_LENGTH"
  | .pktResolve => "PKT_RESOLVE"
  | .txSend _ _ => "TX_SEND"
  | .txSendData _ _ _ _ => "TX_SEND_DATA"
  | .txSendCommand _ _ _ _ => "TX_SEND_COMMAND"
  | .txSendCommandWithAck _ _ _ _ => "TX_SEND_COMMAND_WITH_ACK"
  | .txSendAck _ _ _ _ => "TX_SEND_ACK"
  | .txSendNotice _ _ _ => "TX_SEND_NOTICE"
  | .rxListen => "RX_LISTEN"
  | .radioInit => "RADIO_INIT"
  | .radioBegin _ _ _ _ => "RADIO_BEGIN"
  | .radioEnd => "RADIO_END"
  | .radioRxEnable => "RADIO_RX_ENABLE"
  | .radioRxDisable => "RADIO_RX_DISABLE"
  | .radioGetSendMode => "RADIO_GET_SEND_MODE"
  | .radioSetSendMode _ _ => "RADIO_SET_SEND_MODE"
  | .radioSetAckReq _ => "RADIO_SET_ACK_REQ"
  | .radioSetBroadcastEnb _ => "RADIO_SET_BROADCAST_ENB"
  | .radioSetPromiscuous _ => "RADIO_SET_PROMISCUOUS"
  | .radioGetMyAddress => "RADIO_GET_MY_ADDRESS"
  | .hdrTagData _ _ _ => "HDR_TAG_DATA"
  | .hdrTagCommand _ _ _ => "HDR_TAG_COMMAND"
  | .hdrTagAck _ _ _ => "HDR_TAG_ACK"
  | .hdrTagNotice _ _ _ => "HDR_TAG_NOTICE"
  | .hdrTagReserved _ _ _ _ => "HDR_TAG_RESERVED"

/-- The operand fields of a command, in the order of the assembly syntax (30_encoding.md R70). -/
inductive Operand where
  | a | p | q | r | s
deriving DecidableEq, Repr

/-- The column "fields read" of 30_encoding.md R66, in the order of R70. -/
def operands : Instr → List Operand
  | .fbInit => []
  | .fbSetType _ => [.a]
  | .fbGetType => []
  | .fbSetFlag _ _ => [.a]
  | .fbGetFlag _ => [.a]
  | .fbBodyRead _ => [.p]
  | .fbBodyWrite _ _ => [.a, .p]
  | .fbResetLength _ => [.p]
  | .fbWireLength => []
  | .dataInit => []
  | .dataSet _ => [.s]
  | .dataGet => []
  | .dataGetLength => []
  | .dataSetFragmented _ => [.a]
  | .dataIsFragmented => []
  | .cmdInit => []
  | .cmdSetCode _ => [.a]
  | .cmdGetCode => []
  | .cmdSetParam _ => [.s]
  | .cmdGetParam => []
  | .cmdGetParamLength => []
  | .cmdEnableAckRequest => []
  | .cmdSetResponseRequested _ => [.a]
  | .cmdIsResponseRequested => []
  | .ackInit => []
  | .ackSetCode _ => [.a]
  | .ackGetCode => []
  | .ackSetResponse _ => [.s]
  | .ackGetResponse => []
  | .ackGetResponseLength => []
  | .ntcInit => []
  | .ntcSet _ => [.s]
  | .ntcGet => []
  | .ntcGetLength => []
  | .pktResolve => []
  | .txSend _ _ => [.p, .q]
  | .txSendData _ _ _ _ => [.a, .p, .q, .s]
  | .txSendCommand _ _ _ _ => [.a, .p, .q, .s]
  | .txSendCommandWithAck _ _ _ _ => [.a, .p, .q, .s]
  | .txSendAck _ _ _ _ => [.a, .p, .q, .s]
  | .txSendNotice _ _ _ => [.p, .q, .s]
  | .rxListen => []
  | .radioInit => []
  | .radioBegin _ _ _ _ => [.a, .p, .q, .r]
  | .radioEnd => []
  | .radioRxEnable => []
  | .radioRxDisable => []
  | .radioGetSendMode => []
  | .radioSetSendMode _ _ => [.a, .r]
  | .radioSetAckReq _ => [.a]
  | .radioSetBroadcastEnb _ => [.a]
  | .radioSetPromiscuous _ => [.a]
  | .radioGetMyAddress => []
  | .hdrTagData _ _ _ => []
  | .hdrTagCommand _ _ _ => []
  | .hdrTagAck _ _ _ => []
  | .hdrTagNotice _ _ _ => []
  | .hdrTagReserved _ _ _ _ => []

/-- One operand written `name=value`; `S` is written as raw bytes (30_encoding.md R70). -/
def Operand.asm (c : Command) : Operand → String
  | .a => "A=" ++ toString c.a.toNat
  | .p => "P=" ++ toString c.p.toNat
  | .q => "Q=" ++ toString c.q.toNat
  | .r => "R=" ++ toString c.r.toNat
  | .s => "S=[" ++ ", ".intercalate (c.str.map fun b => toString b.toNat) ++ "]"

/-- The assembly text of a command: the mnemonic, then its operands separated by commas in the order
`A`, `P`, `Q`, `R`, `S` (30_encoding.md R70; log entry 19). A header-tag row is no command and has its
name alone. -/
def assembly (i : Instr) : String :=
  match encode i, operands i with
  | .command c, o :: os => mnemonic i ++ " " ++ ", ".intercalate ((o :: os).map (Operand.asm c))
  | _, _ => mnemonic i

end Sys2Proof
end

