-- ==== Sys2Proof/Machine/State.lean ====
section
/-! DEFINITION. The state of the frame codec core as plain data, its outcomes and its reset value (10_state.md R20 to R36; 70_reset_and_hazards.md R330). -/

namespace Sys2Proof.Machine

/-- The frame address space as cells `(address, byte)`, addresses strictly rising, no cell equal to
what an unlisted address reads as (20_memory.md R40; Machine/Memory.lean). -/
abbrev Memory := List Host.Cell

/-- The status codes of 60_exceptions.md R300 (their numbers: `Status.code`, Machine/Ops.lean). -/
inductive Status where
  | ok
  | noData
  | unknownType
  | capacityViolation
  | typeMismatch
  | unterminated
  | shortFrame
  | badIndex
  | illegalOp
  | radioContract
deriving DecidableEq, Repr

/-- `resp.rstat`: what the radio returned, verbatim, or none (10_state.md R28). -/
inductive RStat where
  | none
  | status (s : RadioStatus)
  | address (a : RadioAddress)
  | mode (m : RadioSendMode)
deriving DecidableEq, Repr

/-- The response registers of the command port (10_state.md R28). -/
structure Resp where
  /-- `resp.status`, 8 bits -/
  status : Byte
  /-- `resp.value`, 16 bits -/
  value  : Word16
  /-- `resp.bytes` -/
  bytes  : List Byte
  /-- `resp.rstat` -/
  rstat  : RStat
  /-- `resp.info` -/
  info   : Int
deriving DecidableEq, Repr

/-- A call to the external radio with its arguments, by value (10_state.md R30; 20_memory.md R51). -/
inductive RadioCall where
  | init
  | begin (channel : Byte) (panId rate : Word16) (power : Byte)
  | close
  | rxEnable
  | rxDisable
  | send (panId dst : Word16) (bytes : List Byte) (len : Nat)
  | readData (maxLen : Nat)
  | getSendMode
  | setSendMode (addrType txRetry : Byte)
  | setAckReq (value : Bool)
  | setBroadcastEnb (value : Bool)
  | setPromiscuous (value : Bool)
  | getMyAddress
deriving DecidableEq, Repr

/-- What becomes of one radio call: an answer, or none ever (10_state.md R30; 70_reset_and_hazards.md
R341). -/
inductive RadioReply where
  | answers (a : RadioAnswer)
  | silent
deriving DecidableEq, Repr

/-- What the host does to the block: presents a command (10_state.md R28) or causes the reset event
(70_reset_and_hazards.md R330). -/
inductive HostEvent where
  | command (c : Command)
  | reset
deriving DecidableEq, Repr

/-- The state. `mem`, `ulen` and `resp` are the block's (10_state.md R34). The other fields are the
model's own: the parameter, the inputs, the output and the count of free values (log entries 1, 5, 6,
7, 9). -/
structure State where
  /-- the parameter FRAME_MAX; no step changes it (00_scope.md R6) -/
  cfg      : Config
  /-- `buf`: the header byte at address 0 and the body after it (10_state.md R20) -/
  mem      : Memory
  /-- the used-length register (10_state.md R25) -/
  ulen     : Nat
  /-- the response registers (10_state.md R28) -/
  resp     : Resp
  /-- what the host has yet to present, oldest first -/
  port     : List HostEvent
  /-- the radio's replies to the next calls, where the state fixes them, oldest first -/
  radioIn  : List RadioReply
  /-- the radio calls made, oldest first -/
  radioOut : List RadioCall
  /-- how many free values have been drawn -/
  draws    : Nat
deriving DecidableEq, Repr

/-- Reasons the machine stops. -/
inductive Fault where
  /-- Raised by every operation that calls the radio, when the radio never answers: the transaction
  never completes (70_reset_and_hazards.md R341). SAFE: the run is stuck, as the spec says. -/
  | radioNeverAnswers
  /-- Raised by a read that would pass the end of the frame buffer (20_memory.md R40, R49), which needs
  `ulen > BODY_CAP`, a state no run reaches (10_state.md R26). SAFE: the model stops. -/
  | outsideFrame
deriving DecidableEq, Repr

/-- Reasons the model gives an instruction no meaning. -/
inductive Refusal where
  /-- Raised by an arm of `exec` for an instruction without a meaning; no arm raises it. SAFE. -/
  | notModelled (mnemonic : String)
deriving DecidableEq, Repr

/-- The response registers at reset. The spec gives no value (10_state.md R36): DESIGN CHOICE, unsafe,
log entry 2. -/
def Resp.reset : Resp := { status := 0x00#8, value := 0#16, bytes := [], rstat := .none, info := 0 }

/-- The machine right after reset (10_state.md R36): the header 0x00 and every body byte UNWRITTEN (the
empty memory), `ulen = 0`, FRAME_MAX at its default, nothing presented, nothing called. -/
def State.reset : State :=
  { cfg := Config.default, mem := [], ulen := 0, resp := Resp.reset, port := [], radioIn := [],
    radioOut := [], draws := 0 }

end Sys2Proof.Machine
end

