-- ==== Sys2Proof/Machine/Memory.lean ====
section
/-! DEFINITION. The frame address space: reading and writing bytes, draws of UNWRITTEN bytes, and the canonical form (10_state.md R20, R24; 20_memory.md R40). -/

namespace Sys2Proof.Machine

/-- What an address that lists no cell reads as: the header is `0x00`, every body byte is UNWRITTEN
(`none`), as after reset (10_state.md R24, R36; log entries 3 and 4). -/
def Memory.unlisted (addr : Nat) : Option Byte := if addr = 0 then some 0x00 else none

/-- The cell listed at an address. -/
def Memory.lookup : Memory → Nat → Option Byte
  | [], _ => none
  | (b, w) :: m, a => if a = b then some w else Memory.lookup m a

/-- `buf[addr]`: a byte, or `none` for UNWRITTEN (00_scope.md R13; 10_state.md R24). -/
def Memory.read (m : Memory) (addr : Nat) : Option Byte :=
  match m.lookup addr with
  | some v => some v
  | none => Memory.unlisted addr

/-- List a cell, in the place its address has. -/
def Memory.put : Memory → Nat → Byte → Memory
  | [], a, v => [(a, v)]
  | (b, w) :: m, a, v =>
    if a < b then (a, v) :: (b, w) :: m
    else if a = b then (a, v) :: m
    else (b, w) :: Memory.put m a v

/-- List no cell at an address. -/
def Memory.drop (m : Memory) (a : Nat) : Memory := m.filter fun c => c.1 ≠ a

/-- `buf[addr] <- v` (00_scope.md R13). Writing what an unlisted address reads as removes the cell. -/
def Memory.write (m : Memory) (addr : Nat) (v : Byte) : Memory :=
  if Memory.unlisted addr = some v then m.drop addr else m.put addr v

/-- `MemWrite(addr, |v|, v)` (00_scope.md R13). -/
def Memory.writeBytes (m : Memory) (addr : Nat) : List Byte → Memory
  | [] => m
  | v :: vs => Memory.writeBytes (m.write addr v) (addr + 1) vs

/-- Read a byte value; an UNWRITTEN byte is a draw, the `d`-th free value (10_state.md R24). Gives the
value and the next draw. -/
def Memory.readByte (m : Memory) (addr d : Nat) : Byte × Nat :=
  match m.read addr with
  | some v => (v, d)
  | none => (Config.unwrittenByte d, d + 1)

/-- `MemRead(addr, n)`: the `n` bytes in increasing address (00_scope.md R13), and the next draw. -/
def Memory.readBytes (m : Memory) : (n addr d : Nat) → List Byte × Nat
  | 0, _, d => ([], d)
  | n + 1, addr, d =>
    let b := m.readByte addr d
    let bs := Memory.readBytes m n (addr + 1) b.2
    (b.1 :: bs.1, bs.2)

/-- The canonical form: addresses strictly rising, no cell equal to what an unlisted address reads as. -/
abbrev Memory.wf (m : Memory) : Prop :=
  m.Pairwise (fun x y => x.1 < y.1) ∧ ∀ c ∈ m, Memory.unlisted c.1 ≠ some c.2

/-- Every cell lies in the frame address space `0 .. FRAME_MAX-1` (20_memory.md R40, R49). -/
abbrev Memory.within (m : Memory) (frameMax : Nat) : Prop := ∀ c ∈ m, c.1 < frameMax

end Sys2Proof.Machine
end

