-- ==== Sys2Proof/Machine/Flags.lean ====
section
/-! DEFINITION. The header byte's fields: reading and writing TYPE, RR and FRAG (10_state.md R21, R22; 41_frame_buffer.md R101, R103, R104). -/

namespace Sys2Proof.Machine

/-- The bit number of a flag: `b <- 3 if A[1] == 0 else 4` (41_frame_buffer.md R103). -/
def flagBit : Flag → Nat
  | .responseRequested => 3
  | .fragmented => 4

/-- `(hdr & 0xF8) | t` (41_frame_buffer.md R101). -/
def putType (h : Byte) (t : BitVec 3) : Byte := (h &&& 0xF8#8) ||| t.setWidth 8

/-- `(hdr & ~(1 << b)) | (v << b)` (41_frame_buffer.md R103). -/
def putFlag (h : Byte) (f : Flag) (v : Bool) : Byte :=
  (h &&& ~~~(0x01#8 <<< flagBit f)) ||| (ofBool v <<< flagBit f)

/-- `hdr[b]` (41_frame_buffer.md R104). -/
def getFlag (h : Byte) (f : Flag) : Bool := h.getLsbD (flagBit f)

/-- A flag as the 16-bit scalar 0 or 1. -/
def flagValue (b : Bool) : Word16 := if b then 1#16 else 0#16

end Sys2Proof.Machine
end

