-- ==== Sys2Proof/Machine/Operands.lean ====
section
/-! DEFINITION. The capacities that follow from FRAME_MAX and the reading of byte-string operands (00_scope.md R7, R11, R12). -/

namespace Sys2Proof

/-- `BODY_CAP = FRAME_MAX - 1`; no borrow, since `FRAME_MAX >= 3` (00_scope.md R7). -/
def Config.bodyCap (c : Config) : Nat := c.frameMax - 1

/-- `DATA_CAP = BODY_CAP` (00_scope.md R7). -/
def Config.dataCap (c : Config) : Nat := c.bodyCap

/-- `CMD_REGION = BODY_CAP - 1` (00_scope.md R7). -/
def Config.cmdRegion (c : Config) : Nat := c.bodyCap - 1

/-- `CMD_STR_MAX = CMD_REGION - 1` (00_scope.md R7). -/
def Config.cmdStrMax (c : Config) : Nat := c.cmdRegion - 1

/-- `NOTICE_REGION = BODY_CAP` (00_scope.md R7). -/
def Config.noticeRegion (c : Config) : Nat := c.bodyCap

/-- `NOTICE_STR_MAX = NOTICE_REGION - 1` (00_scope.md R7). -/
def Config.noticeStrMax (c : Config) : Nat := c.noticeRegion - 1

namespace Machine

/-- `cstr(s)`: the prefix of `s` before its first NUL, or all of `s` (00_scope.md R12). -/
def cstr (s : List Byte) : List Byte := s.takeWhile fun b => b ≠ nul

/-- `k = min(|cstr(s)|, region - 1)`, the length a string setter stores and returns
(40_codec_common.md R92). -/
def storedLen (region : Nat) (s : List Byte) : Nat := min (cstr s).length (region - 1)

/-- `n = min(|S|, DATA_CAP)`, the length a data setter stores and returns (42_data.md R121). -/
def dataLen (c : Config) (s : List Byte) : Nat := min s.length c.dataCap

/-- A length as the 16-bit scalar `resp.value`; every length of a reachable state fits (00_scope.md R6;
log entry 17). -/
def lengthValue (n : Nat) : Word16 := BitVec.ofNat 16 n

end Machine
end Sys2Proof
end

