-- ==== Sys2Proof/Machine/Ops.lean ====
section
/-! DEFINITION. The operations every meaning is written over: state accessors, frame reads and writes, responses, `raise`, the codec helpers and the radio call (00_scope.md R13; 40_codec_common.md; 60_exceptions.md R303; 10_state.md R30). -/

namespace Sys2Proof.Machine

/-- The outcome of one operation. -/
abbrev Result := Host.Outcome State Fault Refusal

/-! ## State updates -/

/-- The state with another frame buffer. -/
def State.withMem (s : State) (m : Memory) : State := { s with mem := m }

/-- `ulen <- n` (00_scope.md R13). -/
def State.withUlen (s : State) (n : Nat) : State := { s with ulen := n }

/-- The state with these response registers. -/
def State.withResp (s : State) (r : Resp) : State := { s with resp := r }

/-- The state after draws: the next free value is the `d`-th. -/
def State.withDraws (s : State) (d : Nat) : State := { s with draws := d }

/-- The state with this left to present. -/
def State.withPort (s : State) (p : List HostEvent) : State := { s with port := p }

/-- The state after the radio call `c`: the call is recorded, and one scripted reply or one draw is
used. -/
def State.called (s : State) (c : RadioCall) : State :=
  { s with radioIn := s.radioIn.tail, radioOut := s.radioOut ++ [c],
           draws := if s.radioIn.isEmpty then s.draws + 1 else s.draws }

/-! ## The frame buffer -/

/-- `hdr = buf[0]` (10_state.md R21); address 0 always reads as a byte. -/
def State.hdr (s : State) : Byte := (s.mem.read 0).getD 0x00

/-- `hdr <- h`. -/
def State.setHdr (s : State) (h : Byte) : State := s.withMem (s.mem.write 0 h)

/-- `hdr[2:0]`. -/
def State.type (s : State) : BitVec 3 := headerType s.hdr

/-- `body[i] = buf[1 + i]`: a byte, or `none` for UNWRITTEN (00_scope.md R13; 10_state.md R24). -/
def State.body (s : State) (i : Nat) : Option Byte := s.mem.read (1 + i)

/-- `body[i] <- v`. The rule that writes it bounds `i` by BODY_CAP. -/
def State.setBody (s : State) (i : Nat) (v : Byte) : State := s.withMem (s.mem.write (1 + i) v)

/-- `MemWrite(addr, |v|, v)`. The rule that writes it bounds `addr + |v|` by FRAME_MAX
(20_memory.md R40). -/
def State.memWrite (s : State) (addr : Nat) (v : List Byte) : State :=
  s.withMem (s.mem.writeBytes addr v)

/-- `MemRead(addr, n)`, then `k` on the bytes: defined only for `addr + n <= FRAME_MAX`
(20_memory.md R40, R49; log entry 15). -/
def memRead (s : State) (addr n : Nat) (k : List Byte → State → Result) : Result :=
  if addr + n ≤ s.cfg.frameMax then
    k (s.mem.readBytes n addr s.draws).1 (s.withDraws (s.mem.readBytes n addr s.draws).2)
  else .fault .outsideFrame

/-! ## Completing and raising -/

/-- The numbers of the status codes (60_exceptions.md R300). -/
def Status.code : Status → Byte
  | .ok => 0x00
  | .noData => 0x01
  | .unknownType => 0x02
  | .capacityViolation => 0x03
  | .typeMismatch => 0x04
  | .unterminated => 0x05
  | .shortFrame => 0x06
  | .badIndex => 0x07
  | .illegalOp => 0x08
  | .radioContract => 0x09

/-- The response registers of a completed operation; a register the rule does not name has its "none"
value (10_state.md R29). -/
def Resp.done (value : Word16 := 0) (bytes : List Byte := []) (rstat : RStat := .none) : Resp :=
  { status := Status.ok.code, value := value, bytes := bytes, rstat := rstat, info := 0 }

/-- The response registers after `raise E(info)` (60_exceptions.md R303). -/
def Resp.raised (e : Status) (info : Int) : Resp :=
  { status := e.code, value := 0, bytes := [], rstat := .none, info := info }

/-- Complete with OK and these results. -/
def complete (r : Resp) (s : State) : Result := .next (s.withResp r)

/-- TAKING AN EXCEPTION: `raise E(info)` ends the transaction with the status and the cause value, and
nothing else changes (00_scope.md R13; 60_exceptions.md R303). There is no trap entry, no saved state
and no return: the next command is performed like any other (60_exceptions.md R309, R310). -/
def raise (e : Status) (info : Int) (s : State) : Result := .next (s.withResp (Resp.raised e info))

/-! ## Codec helpers (40_codec_common.md) -/

/-- `TagCheck(t)`, then `k` (40_codec_common.md R90). -/
def tagCheck (t : BitVec 3) (s : State) (k : State → Result) : Result :=
  if s.type = t then k s else raise .typeMismatch s.type.toNat s

/-- `VariantInit(t)` (40_codec_common.md R91). -/
def variantInit (t : BitVec 3) (s : State) : State := (s.setHdr (t.setWidth 8)).withUlen 0

/-- `StrStore(off, region, S)`; the length it returns is `storedLen region S`
(40_codec_common.md R92). -/
def strStore (off region : Nat) (str : List Byte) (s : State) : State :=
  let k := storedLen region str
  ((s.memWrite (1 + off) ((cstr str).take k)).setBody (off + k) nul).withUlen (off + k + 1)

/-- The loop of `StrScan`: the first `j` in `[j, j + fuel)` with `body[j] = NUL`, reading each byte
once, and the next draw (40_codec_common.md R93). -/
def Memory.scanNul (m : Memory) : (fuel j d : Nat) → Option Nat × Nat
  | 0, _, d => (none, d)
  | fuel + 1, j, d =>
    let b := m.readByte (1 + j) d
    if b.1 = nul then (some j, b.2) else Memory.scanNul m fuel (j + 1) b.2

/-- `StrScan(off)`, then `k` on the string and its length; UNTERMINATED where `body[off .. ulen)` holds
no NUL (40_codec_common.md R93; log entry 5). -/
def strScan (off : Nat) (s : State) (k : List Byte → Nat → State → Result) : Result :=
  if 1 + s.ulen ≤ s.cfg.frameMax then
    let found := s.mem.scanNul (s.ulen - off) off s.draws
    match found.1 with
    | none => raise .unterminated s.ulen (s.withDraws found.2)
    | some j => memRead (s.withDraws found.2) (1 + off) (j - off) fun bytes s' => k bytes (j - off) s'
  else .fault .outsideFrame

/-- The set-code step of Command and Ack: `body[0] <- A`, `ulen <- max(ulen, 1)` (43_command.md R141,
44_ack.md R161). -/
def setCode (cmd : Byte) (s : State) : State := (s.setBody 0 cmd).withUlen (max s.ulen 1)

/-- The get-code step of Command and Ack: SHORT_FRAME where `ulen < 1`, else `body[0]`
(43_command.md R142, 44_ack.md R162). -/
def getCode (s : State) : Result :=
  if s.ulen < 1 then raise .shortFrame s.ulen s
  else memRead s 1 1 fun bytes s' => complete (.done ((bytes.headD 0).setWidth 16)) s'

/-- The string getters: `resp.bytes <- s`, `resp.value <- k` (43_command.md R144). -/
def getString (off : Nat) (s : State) : Result :=
  strScan off s fun bytes k s' => complete (.done (lengthValue k) bytes) s'

/-- The string length queries: `resp.value <- k` (43_command.md R145). -/
def getStringLength (off : Nat) (s : State) : Result :=
  strScan off s fun _ k s' => complete (.done (lengthValue k)) s'

/-- The data store step: the first `n = dataLen` bytes, `ulen <- n` (42_data.md R121). -/
def dataStore (str : List Byte) (s : State) : State :=
  (s.memWrite 1 (str.take (dataLen s.cfg str))).withUlen (dataLen s.cfg str)

/-- What PKT_RESOLVE answers for a tag (46_dispatch.md R190). -/
def resolveTag (t : BitVec 3) (s : State) : Result :=
  if 4 ≤ t.toNat then raise .unknownType t.toNat s else complete (.done (t.setWidth 16)) s

/-! ## The radio (10_state.md R30) -/

/-- The radio's answer to the next call: the scripted one, a free value where the state scripts none, or
none ever (10_state.md R30; 70_reset_and_hazards.md R341; log entry 7). -/
def State.nextAnswer (s : State) : Option RadioAnswer :=
  match s.radioIn with
  | .answers a :: _ => some a
  | .silent :: _ => none
  | [] => some (Config.radioAnswer s.draws)

/-- `RADIO.op(args)`: make the call, then `k` on the radio's answer. A radio that never answers leaves the
transaction incomplete (70_reset_and_hazards.md R341; log entries 8, 9). -/
def radioCall (c : RadioCall) (s : State) (k : RadioAnswer → State → Result) : Result :=
  match s.nextAnswer with
  | some a => k a (s.called c)
  | none => .fault .radioNeverAnswers

/-- The body of TX_SEND: hand the `w` bytes of the frame to the radio, its status to `resp.rstat`, and
`v` to `resp.value` (47_framer.md R200, R201). -/
def sendFrame (panId dst : Word16) (w v : Nat) (s : State) : Result :=
  memRead s 0 w fun bytes s1 =>
    radioCall (.send panId dst bytes w) s1 fun a s2 =>
      complete (.done (lengthValue v) [] (.status a.status)) s2

/-- A pass-through whose answer is a status, copied verbatim to `resp.rstat`
(48_radio_passthrough.md R230). -/
def passThrough (c : RadioCall) (s : State) : Result :=
  radioCall c s fun a s' => complete (.done 0 [] (.status a.status)) s'

end Sys2Proof.Machine
end

