-- ==== Sys2Proof/Machine/AckCodec.lean ====
section
/-! DEFINITION. The Ack codec, tag 2, the same layout as Command (44_ack.md R160 to R165). -/

namespace Sys2Proof.Machine

/-- ACK_INIT (R160). -/
def execAckInit (s : State) : Result := complete .done (variantInit 2 s)

/-- ACK_SET_CODE (R161). -/
def execAckSetCode (cmd : Byte) (s : State) : Result :=
  tagCheck 2 s fun s => complete .done (setCode cmd s)

/-- ACK_GET_CODE (R162). -/
def execAckGetCode (s : State) : Result := tagCheck 2 s getCode

/-- ACK_SET_RESPONSE (R163). -/
def execAckSetResponse (str : List Byte) (s : State) : Result :=
  tagCheck 2 s fun s =>
    complete (.done (lengthValue (storedLen s.cfg.cmdRegion str))) (strStore 1 s.cfg.cmdRegion str s)

/-- ACK_GET_RESPONSE (R164). -/
def execAckGetResponse (s : State) : Result := tagCheck 2 s (getString 1)

/-- ACK_GET_RESPONSE_LENGTH (R165). -/
def execAckGetResponseLength (s : State) : Result := tagCheck 2 s (getStringLength 1)

end Sys2Proof.Machine
end

