-- ==== Sys2Proof/Machine/CommandCodec.lean ====
section
/-! DEFINITION. The Command codec, tag 1 (43_command.md R140 to R148). -/

namespace Sys2Proof.Machine

/-- CMD_INIT (R140). -/
def execCmdInit (s : State) : Result := complete .done (variantInit 1 s)

/-- CMD_SET_CODE (R141). -/
def execCmdSetCode (cmd : Byte) (s : State) : Result :=
  tagCheck 1 s fun s => complete .done (setCode cmd s)

/-- CMD_GET_CODE (R142). -/
def execCmdGetCode (s : State) : Result := tagCheck 1 s getCode

/-- CMD_SET_PARAM (R143): the string goes to `body[1..]`, and `ulen` counts the code and the NUL. -/
def execCmdSetParam (str : List Byte) (s : State) : Result :=
  tagCheck 1 s fun s =>
    complete (.done (lengthValue (storedLen s.cfg.cmdRegion str))) (strStore 1 s.cfg.cmdRegion str s)

/-- CMD_GET_PARAM (R144). -/
def execCmdGetParam (s : State) : Result := tagCheck 1 s (getString 1)

/-- CMD_GET_PARAM_LENGTH (R145). -/
def execCmdGetParamLength (s : State) : Result := tagCheck 1 s (getStringLength 1)

/-- CMD_ENABLE_ACK_REQUEST (R146): `hdr <- hdr | 0x08`; the radio's own setting is not touched (R16). -/
def execCmdEnableAckRequest (s : State) : Result :=
  tagCheck 1 s fun s => complete .done (s.setHdr (s.hdr ||| 0x08#8))

/-- CMD_SET_RESPONSE_REQUESTED (R147). -/
def execCmdSetResponseRequested (value : Bool) (s : State) : Result :=
  tagCheck 1 s fun s => complete .done (s.setHdr (putFlag s.hdr .responseRequested value))

/-- CMD_IS_RESPONSE_REQUESTED (R148). -/
def execCmdIsResponseRequested (s : State) : Result :=
  tagCheck 1 s fun s => complete (.done (flagValue (getFlag s.hdr .responseRequested))) s

end Sys2Proof.Machine
end

