-- ==== Sys2Proof/Machine/DataCodec.lean ====
section
/-! DEFINITION. The Data codec, tag 0 (42_data.md R120 to R125). -/

namespace Sys2Proof.Machine

/-- DATA_INIT (R120). -/
def execDataInit (s : State) : Result := complete .done (variantInit 0 s)

/-- DATA_SET (R121): the first `min(|S|, DATA_CAP)` bytes; FRAG is not set. -/
def execDataSet (str : List Byte) (s : State) : Result :=
  tagCheck 0 s fun s => complete (.done (lengthValue (dataLen s.cfg str))) (dataStore str s)

/-- DATA_GET (R122): the bytes `body[0 .. ulen)`. -/
def execDataGet (s : State) : Result :=
  tagCheck 0 s fun s =>
    memRead s 1 s.ulen fun bytes s' => complete (.done (lengthValue s.ulen) bytes) s'

/-- DATA_GET_LENGTH (R123). -/
def execDataGetLength (s : State) : Result :=
  tagCheck 0 s fun s => complete (.done (lengthValue s.ulen)) s

/-- DATA_SET_FRAGMENTED (R124): FRAG to the operand (90_conflicts.md C8). -/
def execDataSetFragmented (value : Bool) (s : State) : Result :=
  tagCheck 0 s fun s => complete .done (s.setHdr (putFlag s.hdr .fragmented value))

/-- DATA_IS_FRAGMENTED (R125). -/
def execDataIsFragmented (s : State) : Result :=
  tagCheck 0 s fun s => complete (.done (flagValue (getFlag s.hdr .fragmented))) s

end Sys2Proof.Machine
end

