-- ==== Sys2Proof/Machine/FrameBuffer.lean ====
section
/-! DEFINITION. The frame buffer operations (41_frame_buffer.md R100 to R108). -/

namespace Sys2Proof.Machine

/-- FB_INIT (R100): the header and `ulen` to zero; the body stays. -/
def execFbInit (s : State) : Result := complete .done ((s.setHdr 0x00).withUlen 0)

/-- FB_SET_TYPE (R101). -/
def execFbSetType (tag : BitVec 3) (s : State) : Result :=
  complete .done (s.setHdr (putType s.hdr tag))

/-- FB_GET_TYPE (R102). -/
def execFbGetType (s : State) : Result := complete (.done (s.type.setWidth 16)) s

/-- FB_SET_FLAG (R103). -/
def execFbSetFlag (sel : Flag) (value : Bool) (s : State) : Result :=
  complete .done (s.setHdr (putFlag s.hdr sel value))

/-- FB_GET_FLAG (R104). -/
def execFbGetFlag (sel : Flag) (s : State) : Result :=
  complete (.done (flagValue (getFlag s.hdr sel))) s

/-- FB_BODY_READ (R105): bounded by BODY_CAP, not by `ulen`. -/
def execFbBodyRead (index : Word16) (s : State) : Result :=
  if s.cfg.bodyCap ≤ index.toNat then raise .badIndex index.toNat s
  else memRead s (1 + index.toNat) 1 fun bytes s' =>
    complete (.done ((bytes.headD 0).setWidth 16)) s'

/-- FB_BODY_WRITE (R106): `ulen` stays. -/
def execFbBodyWrite (index : Word16) (value : Byte) (s : State) : Result :=
  if s.cfg.bodyCap ≤ index.toNat then raise .badIndex index.toNat s
  else complete .done (s.setBody index.toNat value)

/-- FB_RESET_LENGTH (R107). -/
def execFbResetLength (n : Word16) (s : State) : Result :=
  if s.cfg.bodyCap < n.toNat then raise .capacityViolation n.toNat s
  else complete .done (s.withUlen n.toNat)

/-- FB_WIRE_LENGTH (R108). -/
def execFbWireLength (s : State) : Result := complete (.done (lengthValue (s.ulen + 1))) s

end Sys2Proof.Machine
end

