-- ==== Sys2Proof/Machine/Framer.lean ====
section
/-! DEFINITION. The packet framer: send, the builders and listen (47_framer.md R200 to R207). -/

namespace Sys2Proof.Machine

/-- TX_SEND (R200): the held frame as it is; no tag check. -/
def execTxSend (panId dst : Word16) (s : State) : Result :=
  sendFrame panId dst (s.ulen + 1) (s.ulen + 1) s

/-- The frame that TX_SEND_DATA builds: FRAG is the request or `|S| > DATA_CAP` (R202). -/
def buildData (fragment : Bool) (str : List Byte) (s : State) : State :=
  let s1 := dataStore str (variantInit 0 s)
  s1.setHdr (s1.hdr ||| (ofBool (fragment || decide (s.cfg.dataCap < str.length)) <<< 4))

/-- The frame that the Command and Ack builders build before any flag (R203, R205). -/
def buildCode (t : BitVec 3) (cmd : Byte) (str : List Byte) (s : State) : State :=
  strStore 1 s.cfg.cmdRegion str ((variantInit t s).setBody 0 cmd)

/-- TX_SEND_DATA (R202). -/
def execTxSendData (panId dst : Word16) (fragment : Bool) (str : List Byte) (s : State) : Result :=
  let n := dataLen s.cfg str
  sendFrame panId dst (n + 1) n (buildData fragment str s)

/-- TX_SEND_COMMAND (R203). -/
def execTxSendCommand (panId dst : Word16) (cmd : Byte) (str : List Byte) (s : State) : Result :=
  let k := storedLen s.cfg.cmdRegion str
  sendFrame panId dst (k + 3) k (buildCode 1 cmd str s)

/-- TX_SEND_COMMAND_WITH_ACK (R204): RR is set. -/
def execTxSendCommandWithAck (panId dst : Word16) (cmd : Byte) (str : List Byte) (s : State) :
    Result :=
  let k := storedLen s.cfg.cmdRegion str
  let s1 := buildCode 1 cmd str s
  sendFrame panId dst (k + 3) k (s1.setHdr (s1.hdr ||| 0x08#8))

/-- TX_SEND_ACK (R205). -/
def execTxSendAck (panId dst : Word16) (cmd : Byte) (str : List Byte) (s : State) : Result :=
  let k := storedLen s.cfg.cmdRegion str
  sendFrame panId dst (k + 3) k (buildCode 2 cmd str s)

/-- TX_SEND_NOTICE (R206). -/
def execTxSendNotice (panId dst : Word16) (str : List Byte) (s : State) : Result :=
  let k := storedLen s.cfg.noticeRegion str
  sendFrame panId dst (k + 2) k (strStore 0 s.cfg.noticeRegion str (variantInit 3 s))

/-- What RX_LISTEN makes of the radio's answer: NO_DATA, RADIO_CONTRACT, or the frame committed whole
(R207; 20_memory.md R51). `resp.rstat` stays none: the rule does not name it (log entry 16). -/
def receive (r : Received) (s : State) : Result :=
  if r.length ≤ 0 then raise .noData r.length s
  else if (s.cfg.frameMax : Int) < r.length then raise .radioContract r.length s
  else complete (.done (lengthValue r.bytes.length))
    ((s.memWrite 0 r.bytes).withUlen (r.bytes.length - 1))

/-- RX_LISTEN (R207). -/
def execRxListen (s : State) : Result :=
  radioCall (.readData s.cfg.frameMax) s fun a s' => receive a.received s'

end Sys2Proof.Machine
end

