-- ==== Sys2Proof/Machine/NoticeCodec.lean ====
section
/-! DEFINITION. The Notice codec, tag 3: the whole body is the text (45_notice.md R180 to R183). -/

namespace Sys2Proof.Machine

/-- NTC_INIT (R180). -/
def execNtcInit (s : State) : Result := complete .done (variantInit 3 s)

/-- NTC_SET (R181). -/
def execNtcSet (str : List Byte) (s : State) : Result :=
  tagCheck 3 s fun s =>
    complete (.done (lengthValue (storedLen s.cfg.noticeRegion str)))
      (strStore 0 s.cfg.noticeRegion str s)

/-- NTC_GET (R182). -/
def execNtcGet (s : State) : Result := tagCheck 3 s (getString 0)

/-- NTC_GET_LENGTH (R183). -/
def execNtcGetLength (s : State) : Result := tagCheck 3 s (getStringLength 0)

end Sys2Proof.Machine
end

