-- ==== Sys2Proof/Machine/PacketDispatch.lean ====
section
/-! DEFINITION. Packet dispatch and the header-tag rows it decodes (46_dispatch.md R190; 30_encoding.md R61). -/

namespace Sys2Proof.Machine

/-- PKT_RESOLVE (R190): a pure function of the header's type tag. -/
def execPktResolve (s : State) : Result := resolveTag s.type s

/-! The header-tag rows are the type-tag decode that PKT_RESOLVE makes of the held header; RR, FRAG and
bits 7:5 take no part (30_encoding.md R61; log entry 12). -/

/-- HDR_TAG_DATA: the variant is Data. -/
def execHdrTagData (_rr _frag : Bool) (_unused : BitVec 3) (s : State) : Result := resolveTag 0 s

/-- HDR_TAG_COMMAND: the variant is Command. -/
def execHdrTagCommand (_rr _frag : Bool) (_unused : BitVec 3) (s : State) : Result := resolveTag 1 s

/-- HDR_TAG_ACK: the variant is Ack. -/
def execHdrTagAck (_rr _frag : Bool) (_unused : BitVec 3) (s : State) : Result := resolveTag 2 s

/-- HDR_TAG_NOTICE: the variant is Notice. -/
def execHdrTagNotice (_rr _frag : Bool) (_unused : BitVec 3) (s : State) : Result := resolveTag 3 s

/-- HDR_TAG_RESERVED: "unknown packet type", UNKNOWN_TYPE with the tag (R190, 30_encoding.md R69). -/
def execHdrTagReserved (tag : BitVec 3) (_rr _frag : Bool) (_unused : BitVec 3) (s : State) : Result :=
  raise .unknownType tag.toNat s

end Sys2Proof.Machine
end

