-- ==== Sys2Proof/Machine/RadioPassThrough.lean ====
section
/-! DEFINITION. The radio pass-through operations: one call each, the answer verbatim to `resp.rstat`, the frame untouched (48_radio_passthrough.md R230 to R241). -/

namespace Sys2Proof.Machine

/-- RADIO_INIT (R231). -/
def execRadioInit (s : State) : Result := passThrough .init s

/-- RADIO_BEGIN (R232): the arguments are passed unchecked. -/
def execRadioBegin (channel : Byte) (panId rate : Word16) (power : Byte) (s : State) : Result :=
  passThrough (.begin channel panId rate power) s

/-- RADIO_END (R233): the collaborator's `close()` (90_conflicts.md C3). -/
def execRadioEnd (s : State) : Result := passThrough .close s

/-- RADIO_RX_ENABLE (R234). -/
def execRadioRxEnable (s : State) : Result := passThrough .rxEnable s

/-- RADIO_RX_DISABLE (R235). -/
def execRadioRxDisable (s : State) : Result := passThrough .rxDisable s

/-- RADIO_GET_SEND_MODE (R236): `resp.rstat <- mode(m)`. -/
def execRadioGetSendMode (s : State) : Result :=
  radioCall .getSendMode s fun a s' => complete (.done 0 [] (.mode a.sendMode)) s'

/-- RADIO_SET_SEND_MODE (R237). -/
def execRadioSetSendMode (addrType txRetry : Byte) (s : State) : Result :=
  passThrough (.setSendMode addrType txRetry) s

/-- RADIO_SET_ACK_REQ (R238): the header's RR is not touched (00_scope.md R16). -/
def execRadioSetAckReq (value : Bool) (s : State) : Result := passThrough (.setAckReq value) s

/-- RADIO_SET_BROADCAST_ENB (R239). -/
def execRadioSetBroadcastEnb (value : Bool) (s : State) : Result :=
  passThrough (.setBroadcastEnb value) s

/-- RADIO_SET_PROMISCUOUS (R240). -/
def execRadioSetPromiscuous (value : Bool) (s : State) : Result :=
  passThrough (.setPromiscuous value) s

/-- RADIO_GET_MY_ADDRESS (R241): `resp.rstat <- address(a)`. -/
def execRadioGetMyAddress (s : State) : Result :=
  radioCall .getMyAddress s fun a s' => complete (.done 0 [] (.address a.address)) s'

end Sys2Proof.Machine
end

