-- ==== Sys2Proof/Machine/Dispatch.lean ====
section
/-! DEFINITION. The dispatch from an instruction to its meaning, one arm per row of the opcode table. -/

namespace Sys2Proof.Machine

def exec (i : Instr) (s : State) : Host.Outcome State Fault Refusal :=
  match i with
  -- Frame buffer (41_frame_buffer.md)
  | .fbInit => Sys2Proof.Machine.execFbInit s
  | .fbSetType tag => Sys2Proof.Machine.execFbSetType tag s
  | .fbGetType => Sys2Proof.Machine.execFbGetType s
  | .fbSetFlag sel value => Sys2Proof.Machine.execFbSetFlag sel value s
  | .fbGetFlag sel => Sys2Proof.Machine.execFbGetFlag sel s
  | .fbBodyRead index => Sys2Proof.Machine.execFbBodyRead index s
  | .fbBodyWrite index value => Sys2Proof.Machine.execFbBodyWrite index value s
  | .fbResetLength n => Sys2Proof.Machine.execFbResetLength n s
  | .fbWireLength => Sys2Proof.Machine.execFbWireLength s
  -- Data codec (42_data.md)
  | .dataInit => Sys2Proof.Machine.execDataInit s
  | .dataSet str => Sys2Proof.Machine.execDataSet str s
  | .dataGet => Sys2Proof.Machine.execDataGet s
  | .dataGetLength => Sys2Proof.Machine.execDataGetLength s
  | .dataSetFragmented value => Sys2Proof.Machine.execDataSetFragmented value s
  | .dataIsFragmented => Sys2Proof.Machine.execDataIsFragmented s
  -- Command codec (43_command.md)
  | .cmdInit => Sys2Proof.Machine.execCmdInit s
  | .cmdSetCode cmd => Sys2Proof.Machine.execCmdSetCode cmd s
  | .cmdGetCode => Sys2Proof.Machine.execCmdGetCode s
  | .cmdSetParam str => Sys2Proof.Machine.execCmdSetParam str s
  | .cmdGetParam => Sys2Proof.Machine.execCmdGetParam s
  | .cmdGetParamLength => Sys2Proof.Machine.execCmdGetParamLength s
  | .cmdEnableAckRequest => Sys2Proof.Machine.execCmdEnableAckRequest s
  | .cmdSetResponseRequested value => Sys2Proof.Machine.execCmdSetResponseRequested value s
  | .cmdIsResponseRequested => Sys2Proof.Machine.execCmdIsResponseRequested s
  -- Ack codec (44_ack.md)
  | .ackInit => Sys2Proof.Machine.execAckInit s
  | .ackSetCode cmd => Sys2Proof.Machine.execAckSetCode cmd s
  | .ackGetCode => Sys2Proof.Machine.execAckGetCode s
  | .ackSetResponse str => Sys2Proof.Machine.execAckSetResponse str s
  | .ackGetResponse => Sys2Proof.Machine.execAckGetResponse s
  | .ackGetResponseLength => Sys2Proof.Machine.execAckGetResponseLength s
  -- Notice codec (45_notice.md)
  | .ntcInit => Sys2Proof.Machine.execNtcInit s
  | .ntcSet str => Sys2Proof.Machine.execNtcSet str s
  | .ntcGet => Sys2Proof.Machine.execNtcGet s
  | .ntcGetLength => Sys2Proof.Machine.execNtcGetLength s
  -- Packet dispatch (46_dispatch.md)
  | .pktResolve => Sys2Proof.Machine.execPktResolve s
  -- Packet framer (47_framer.md)
  | .txSend panId dst => Sys2Proof.Machine.execTxSend panId dst s
  | .txSendData panId dst fragment str => Sys2Proof.Machine.execTxSendData panId dst fragment str s
  | .txSendCommand panId dst cmd str => Sys2Proof.Machine.execTxSendCommand panId dst cmd str s
  | .txSendCommandWithAck panId dst cmd str => Sys2Proof.Machine.execTxSendCommandWithAck panId dst cmd str s
  | .txSendAck panId dst cmd str => Sys2Proof.Machine.execTxSendAck panId dst cmd str s
  | .txSendNotice panId dst str => Sys2Proof.Machine.execTxSendNotice panId dst str s
  | .rxListen => Sys2Proof.Machine.execRxListen s
  -- Radio pass-through (48_radio_passthrough.md)
  | .radioInit => Sys2Proof.Machine.execRadioInit s
  | .radioBegin channel panId rate power => Sys2Proof.Machine.execRadioBegin channel panId rate power s
  | .radioEnd => Sys2Proof.Machine.execRadioEnd s
  | .radioRxEnable => Sys2Proof.Machine.execRadioRxEnable s
  | .radioRxDisable => Sys2Proof.Machine.execRadioRxDisable s
  | .radioGetSendMode => Sys2Proof.Machine.execRadioGetSendMode s
  | .radioSetSendMode addrType txRetry => Sys2Proof.Machine.execRadioSetSendMode addrType txRetry s
  | .radioSetAckReq value => Sys2Proof.Machine.execRadioSetAckReq value s
  | .radioSetBroadcastEnb value => Sys2Proof.Machine.execRadioSetBroadcastEnb value s
  | .radioSetPromiscuous value => Sys2Proof.Machine.execRadioSetPromiscuous value s
  | .radioGetMyAddress => Sys2Proof.Machine.execRadioGetMyAddress s
  -- Header-tag rows (30_encoding.md R61): the header byte's tag class, with the bits it ignores
  | .hdrTagData rr frag unused => Sys2Proof.Machine.execHdrTagData rr frag unused s
  | .hdrTagCommand rr frag unused => Sys2Proof.Machine.execHdrTagCommand rr frag unused s
  | .hdrTagAck rr frag unused => Sys2Proof.Machine.execHdrTagAck rr frag unused s
  | .hdrTagNotice rr frag unused => Sys2Proof.Machine.execHdrTagNotice rr frag unused s
  | .hdrTagReserved tag rr frag unused => Sys2Proof.Machine.execHdrTagReserved tag rr frag unused s

end Sys2Proof.Machine
end

