-- ==== Sys2Proof/Machine/Transaction.lean ====
section
/-! DEFINITION. One transaction, one host event, and placing an instruction where the next step takes it (00_scope.md R8; 30_encoding.md R67, R68; 70_reset_and_hazards.md R330). -/

namespace Sys2Proof.Machine

/-- Perform one command: an illegal word raises ILLEGAL_OP before any operand is read and changes no
state; a legal one runs its row (30_encoding.md R67, R68; 60_exceptions.md R305). -/
def performCommand (c : Command) (s : State) : Result :=
  match decodeCommand c with
  | .ok i => exec i s
  | .error e => raise .illegalOp e.info s

/-- The reset event: the frame buffer, `ulen` and the response registers to their reset values; no radio
call is made and the radio is not reset (70_reset_and_hazards.md R330, R332; log entry 14). -/
def resetBlock (s : State) : State :=
  { s with mem := State.reset.mem, ulen := State.reset.ulen, resp := State.reset.resp }

/-- Take the oldest host event. With none presented the block waits (70_reset_and_hazards.md R331; log
entry 18). -/
def takeEvent (s : State) : Result :=
  match s.port with
  | [] => .next s
  | .command c :: left => performCommand c (s.withPort left)
  | .reset :: left => .next (resetBlock (s.withPort left))

/-- Present a command before everything the host has yet to present. -/
def presentCommand (c : Command) (s : State) : State := s.withPort (.command c :: s.port)

/-- The command word of PKT_RESOLVE (30_encoding.md R66). -/
def resolveCommand : Command := ⟨packWord 0x50 0 0 0 0, []⟩

/-- Place a word of the opcode table where the next step takes it. A command word is presented on the
command port with `S` empty. A header byte is decoded by PKT_RESOLVE out of `buf[0]`, so it becomes the
held header and PKT_RESOLVE is presented (log entries 1, 12, 13). -/
def placeTableWord (s : State) (nbits w : Nat) : State :=
  if nbits ≤ 8 then presentCommand resolveCommand (s.setHdr (BitVec.ofNat 8 w))
  else presentCommand ⟨BitVec.ofNat 64 w, []⟩ s

end Sys2Proof.Machine
end

