-- ==== Sys2Proof/Machine/Step.lean ====
section
/-! DEFINITION. One step of the machine: one host event, performed to completion (00_scope.md R8; 20_memory.md R50). -/

namespace Sys2Proof.Machine

/-- One transaction (00_scope.md R8): the next command on the command port, the reset event, or a wait. -/
def step (s : State) : Host.Outcome State Fault Refusal := takeEvent s

/-- The state with a word of the opcode table placed where the next step takes its instruction (log
entry 1). -/
def State.withFetchWord (s : State) (nbits w : Nat) : State := placeTableWord s nbits w

end Sys2Proof.Machine
end

