-- ==== Sys2Proof/Safety.lean ====
section
/-! DEFINITION. The invariant of every run and what counts as a safe outcome (10_state.md R26; 20_memory.md R49; 60_exceptions.md R300 to R303). -/

namespace Sys2Proof.Machine

/-- The response registers tell a status of R300; OK records no cause, and any other status has no
result (60_exceptions.md R300, R301, R303). -/
abbrev Resp.Legal (r : Resp) : Prop :=
  r.status.toNat ≤ 0x09 ∧
  (r.status = Status.ok.code → r.info = 0) ∧
  (r.status ≠ Status.ok.code → r.value = 0 ∧ r.bytes = [] ∧ r.rstat = .none)

/-- The invariant: the memory is canonical and lies in the frame address space (20_memory.md R40, R49),
`ulen <= BODY_CAP` (10_state.md R26), and the response registers are legal. -/
abbrev State.Inv (s : State) : Prop :=
  s.mem.wf ∧ s.mem.within s.cfg.frameMax ∧ s.ulen ≤ s.cfg.bodyCap ∧ s.resp.Legal

/-- A safe outcome: the step completes; it does not stop (60_exceptions.md R302). -/
def Completes (o : Result) : Prop := ∃ t, o = .next t

end Sys2Proof.Machine
end

