-- ==== Sys2Proof/Certificates/Slice0/Obligations.lean ====
section
/-! DEFINITION. The statements for the provers, from the numbered rules of spec/, and the words they are written in. -/

namespace Sys2Proof.Machine.Claims

/-! ## Words of the statements -/

/-- The parameter, the host's side and the radio's side are as they were: no radio call was made. -/
def SameOutside (s t : State) : Prop :=
  t.cfg = s.cfg ∧ t.port = s.port ∧ t.radioIn = s.radioIn ∧ t.radioOut = s.radioOut

/-- Every byte of the frame buffer and the used length are as they were. -/
def SameFrame (s t : State) : Prop := (∀ a, t.mem.read a = s.mem.read a) ∧ t.ulen = s.ulen

/-- Every body byte is as it was. -/
def BodyKept (s t : State) : Prop := ∀ i, t.body i = s.body i

/-- The response registers after completing with OK: the named results, every other register none
(10_state.md R29). -/
def Reports (t : State) (value : Nat) (bytes : List Byte) (rstat : RStat) : Prop :=
  t.resp.status = 0x00#8 ∧ t.resp.value.toNat = value ∧ t.resp.bytes = bytes ∧
    t.resp.rstat = rstat ∧ t.resp.info = 0

/-- The response registers after `raise E(info)` (60_exceptions.md R303). -/
def Raises (t : State) (code : Byte) (info : Int) : Prop :=
  t.resp.status = code ∧ t.resp.value = 0#16 ∧ t.resp.bytes = [] ∧ t.resp.rstat = .none ∧
    t.resp.info = info

/-- A command whose `OP` is this and whose reserved byte is zero decodes to this instruction, whatever
its other fields hold. -/
def DecodesTo (op : Byte) (i : Command → Instr) : Prop :=
  ∀ c : Command, c.op = op → c.reserved = 0x00#8 → decodeCommand c = .ok (i c)

/-- On a frame of another tag the operation raises TYPE_MISMATCH with the tag found, and nothing else
changes (40_codec_common.md R90). -/
def RefusesOtherTags (tag : BitVec 3) (i : Instr) : Prop :=
  ∀ s : State, s.type ≠ tag →
    ∃ t, exec i s = .next t ∧ SameOutside s t ∧ SameFrame s t ∧ Raises t 0x04#8 s.type.toNat

/-- The state does not say that the radio stays silent at the next call. -/
def RadioSpeaks (s : State) : Prop := s.radioIn.head? ≠ some .silent

/-- `a` is an answer the radio may give next: the scripted one, or any where none is scripted. -/
def Given (s : State) (a : RadioAnswer) : Prop :=
  ∀ a', s.radioIn.head? = some (.answers a') → a = a'

/-- From `s` to `t` exactly the radio call `c` was made and `a` answered it; the parameter and the host's
side are as they were. -/
def CalledOnce (s t : State) (c : RadioCall) (a : RadioAnswer) : Prop :=
  t.cfg = s.cfg ∧ t.port = s.port ∧ t.radioOut = s.radioOut ++ [c] ∧ t.radioIn = s.radioIn.tail ∧
    Given s a

/-- The operations that call the radio (47_framer.md, 48_radio_passthrough.md). -/
def callsRadio : Instr → Bool
  | .txSend _ _ => true
  | .txSendData _ _ _ _ => true
  | .txSendCommand _ _ _ _ => true
  | .txSendCommandWithAck _ _ _ _ => true
  | .txSendAck _ _ _ _ => true
  | .txSendNotice _ _ _ => true
  | .rxListen => true
  | .radioInit => true
  | .radioBegin _ _ _ _ => true
  | .radioEnd => true
  | .radioRxEnable => true
  | .radioRxDisable => true
  | .radioGetSendMode => true
  | .radioSetSendMode _ _ => true
  | .radioSetAckReq _ => true
  | .radioSetBroadcastEnb _ => true
  | .radioSetPromiscuous _ => true
  | .radioGetMyAddress => true
  | _ => false

/-- The tag that a codec operation other than its `*_INIT` checks (40_codec_common.md R90). -/
def accessorTag : Instr → Option (BitVec 3)
  | .dataSet _ => some 0
  | .dataGet => some 0
  | .dataGetLength => some 0
  | .dataSetFragmented _ => some 0
  | .dataIsFragmented => some 0
  | .cmdSetCode _ => some 1
  | .cmdGetCode => some 1
  | .cmdSetParam _ => some 1
  | .cmdGetParam => some 1
  | .cmdGetParamLength => some 1
  | .cmdEnableAckRequest => some 1
  | .cmdSetResponseRequested _ => some 1
  | .cmdIsResponseRequested => some 1
  | .ackSetCode _ => some 2
  | .ackGetCode => some 2
  | .ackSetResponse _ => some 2
  | .ackGetResponse => some 2
  | .ackGetResponseLength => some 2
  | .ntcSet _ => some 3
  | .ntcGet => some 3
  | .ntcGetLength => some 3
  | _ => none

/-- The operations that write the whole header (10_state.md R21, R22). -/
def writesWholeHeader : Instr → Bool
  | .fbInit => true
  | .dataInit => true
  | .cmdInit => true
  | .ackInit => true
  | .ntcInit => true
  | .txSendData _ _ _ _ => true
  | .txSendCommand _ _ _ _ => true
  | .txSendCommandWithAck _ _ _ _ => true
  | .txSendAck _ _ _ _ => true
  | .txSendNotice _ _ _ => true
  | .rxListen => true
  | _ => false

/-- The operations that write TYPE (10_state.md R21). -/
def writesType : Instr → Bool
  | .fbSetType _ => true
  | i => writesWholeHeader i

/-- The operations that write RR (10_state.md R21). -/
def writesRR : Instr → Bool
  | .fbSetFlag .responseRequested _ => true
  | .cmdEnableAckRequest => true
  | .cmdSetResponseRequested _ => true
  | i => writesWholeHeader i

/-- The operations that write FRAG (10_state.md R21). -/
def writesFrag : Instr → Bool
  | .fbSetFlag .fragmented _ => true
  | .dataSetFragmented _ => true
  | i => writesWholeHeader i

/-- The operations that write `ulen` (10_state.md R25). -/
def writesLength : Instr → Bool
  | .fbResetLength _ => true
  | .dataSet _ => true
  | .cmdSetCode _ => true
  | .cmdSetParam _ => true
  | .ackSetCode _ => true
  | .ackSetResponse _ => true
  | .ntcSet _ => true
  | i => writesWholeHeader i

/-- The operations that write body bytes (20_memory.md R42). -/
def writesBody : Instr → Bool
  | .fbBodyWrite _ _ => true
  | .dataSet _ => true
  | .cmdSetCode _ => true
  | .cmdSetParam _ => true
  | .ackSetCode _ => true
  | .ackSetResponse _ => true
  | .ntcSet _ => true
  | .txSendData _ _ _ _ => true
  | .txSendCommand _ _ _ _ => true
  | .txSendCommandWithAck _ _ _ _ => true
  | .txSendAck _ _ _ _ => true
  | .txSendNotice _ _ _ => true
  | .rxListen => true
  | _ => false

/-- The statuses an operation can produce once it is decoded (60_exceptions.md R304). -/
def mayReport : Instr → List Nat
  | .fbBodyRead _ => [0x00, 0x07]
  | .fbBodyWrite _ _ => [0x00, 0x07]
  | .fbResetLength _ => [0x00, 0x03]
  | .cmdGetCode => [0x00, 0x04, 0x06]
  | .ackGetCode => [0x00, 0x04, 0x06]
  | .cmdGetParam => [0x00, 0x04, 0x05]
  | .cmdGetParamLength => [0x00, 0x04, 0x05]
  | .ackGetResponse => [0x00, 0x04, 0x05]
  | .ackGetResponseLength => [0x00, 0x04, 0x05]
  | .ntcGet => [0x00, 0x04, 0x05]
  | .ntcGetLength => [0x00, 0x04, 0x05]
  | .pktResolve => [0x00, 0x02]
  | .rxListen => [0x00, 0x01, 0x09]
  | .hdrTagReserved _ _ _ _ => [0x02]
  | i => if (accessorTag i).isSome then [0x00, 0x04] else [0x00]

/-- An `OP` value outside the table of 30_encoding.md R66, as R68 lists them. -/
def Unassigned (n : Nat) : Prop :=
  n = 0x00 ∨ (0x0A ≤ n ∧ n ≤ 0x0F) ∨ (0x16 ≤ n ∧ n ≤ 0x1F) ∨ (0x29 ≤ n ∧ n ≤ 0x2F) ∨
  (0x36 ≤ n ∧ n ≤ 0x3F) ∨ (0x44 ≤ n ∧ n ≤ 0x4F) ∨ (0x51 ≤ n ∧ n ≤ 0x5F) ∨
  (0x67 ≤ n ∧ n ≤ 0x6F) ∨ (0x7B ≤ n ∧ n ≤ 0xFF)

/-- The cause value that each status of a performed command records (60_exceptions.md R301). -/
def CauseOf (s : State) (c : Command) (status : Byte) (info : Int) : Prop :=
  (status = 0x00#8 → info = 0) ∧
  (status = 0x01#8 → info ≤ 0 ∧ ∃ a, Given s a ∧ info = a.received.length) ∧
  (status = 0x02#8 → info = s.type.toNat ∧ 4 ≤ info) ∧
  (status = 0x03#8 → info = c.p.toNat) ∧
  (status = 0x04#8 → info = s.type.toNat) ∧
  (status = 0x05#8 → info = s.ulen) ∧
  (status = 0x06#8 → info = s.ulen ∧ info = 0) ∧
  (status = 0x07#8 → info = c.p.toNat) ∧
  (status = 0x08#8 → (Unassigned c.op.toNat → info = c.op.toNat) ∧
    (¬ Unassigned c.op.toNat → info = c.reserved.toNat)) ∧
  (status = 0x09#8 → (s.cfg.frameMax : Int) < info ∧ ∃ a, Given s a ∧ info = a.received.length)

/-- Two commands hold the same value in a field. -/
def SameField (c c' : Command) : Operand → Prop
  | .a => c.a = c'.a
  | .p => c.p = c'.p
  | .q => c.q = c'.q
  | .r => c.r = c'.r
  | .s => c.str = c'.str

/-- `*_INIT`: from any state the header is the tag alone and `ulen` is 0 (40_codec_common.md R91). -/
def InitStamps (op tag : Byte) (i : Instr) : Prop :=
  DecodesTo op (fun _ => i) ∧
  ∀ s : State, ∃ t, exec i s = .next t ∧ SameOutside s t ∧ t.hdr = tag ∧ t.ulen = 0 ∧
    BodyKept s t ∧ Reports t 0 [] .none

/-- The set-code rule of Command and Ack (43_command.md R141, 44_ack.md R161). -/
def SetsCode (op : Byte) (tag : BitVec 3) (i : Byte → Instr) : Prop :=
  DecodesTo op (fun c => i c.a) ∧ (∀ cmd, RefusesOtherTags tag (i cmd)) ∧
  ∀ (cmd : Byte) (s : State), s.type = tag →
    ∃ t, exec (i cmd) s = .next t ∧ SameOutside s t ∧ t.hdr = s.hdr ∧ t.ulen = max s.ulen 1 ∧
      t.body 0 = some cmd ∧ (∀ j, j ≠ 0 → t.body j = s.body j) ∧ Reports t 0 [] .none

/-- The get-code rule of Command and Ack (43_command.md R142, 44_ack.md R162). An UNWRITTEN code byte
reads as some byte. -/
def GetsCode (op : Byte) (tag : BitVec 3) (i : Instr) : Prop :=
  DecodesTo op (fun _ => i) ∧ RefusesOtherTags tag i ∧
  (∀ s : State, s.type = tag → s.ulen = 0 →
    ∃ t, exec i s = .next t ∧ SameOutside s t ∧ SameFrame s t ∧ Raises t 0x06#8 0) ∧
  ∀ s : State, s.type = tag → 1 ≤ s.ulen →
    ∃ t, ∃ v : Byte, exec i s = .next t ∧ SameOutside s t ∧ SameFrame s t ∧
      Reports t v.toNat [] .none ∧ ∀ v', s.body 0 = some v' → v = v'

/-- The string setters: `StrStore(off, region, S)` (40_codec_common.md R92). -/
def SetsString (op : Byte) (tag : BitVec 3) (off : Nat) (region : Config → Nat)
    (i : List Byte → Instr) : Prop :=
  DecodesTo op (fun c => i c.str) ∧ (∀ str, RefusesOtherTags tag (i str)) ∧
  ∀ (str : List Byte) (s : State), s.type = tag →
    ∃ t k, k = min (cstr str).length (region s.cfg - 1) ∧ exec (i str) s = .next t ∧
      SameOutside s t ∧ t.hdr = s.hdr ∧ t.ulen = off + k + 1 ∧ t.ulen ≤ s.cfg.bodyCap ∧
      (∀ j, j < k → t.body (off + j) = (cstr str)[j]?) ∧ t.body (off + k) = some nul ∧
      (∀ j, j < off ∨ off + k < j → t.body j = s.body j) ∧ Reports t k [] .none

/-- What a scan of `body[off .. ulen)` may answer: the text before the first NUL, or UNTERMINATED. An
UNWRITTEN byte may read as any byte, a NUL among them (40_codec_common.md R93, 10_state.md R24). -/
def ScanAnswers (off : Nat) (withBytes : Bool) (s t : State) : Prop :=
  (Raises t 0x05#8 s.ulen ∧ ∀ j, off ≤ j → j < s.ulen → s.body j ≠ some nul) ∨
  ∃ k bytes, off + k < s.ulen ∧ Reports t k (if withBytes then bytes else []) .none ∧
    bytes.length = k ∧ (s.body (off + k) = some nul ∨ s.body (off + k) = none) ∧
    ∀ j, j < k → s.body (off + j) ≠ some nul ∧ ∀ v, s.body (off + j) = some v → bytes[j]? = some v

/-- The string getters and length queries: `StrScan(off)` (40_codec_common.md R93). -/
def ScansString (op : Byte) (tag : BitVec 3) (off : Nat) (withBytes : Bool) (i : Instr) : Prop :=
  DecodesTo op (fun _ => i) ∧ RefusesOtherTags tag i ∧
  ∀ s : State, s.type = tag → s.ulen ≤ s.cfg.bodyCap →
    ∃ t, exec i s = .next t ∧ SameOutside s t ∧ SameFrame s t ∧ ScanAnswers off withBytes s t

/-- A flag setter of a codec: one header bit to a value, the rest of the frame kept. -/
def SetsFlag (op : Byte) (tag : BitVec 3) (bit : Byte) (i : Bool → Instr) : Prop :=
  DecodesTo op (fun c => i (c.a.getLsbD 0)) ∧ (∀ v, RefusesOtherTags tag (i v)) ∧
  ∀ (v : Bool) (s : State), s.type = tag →
    ∃ t, exec (i v) s = .next t ∧ SameOutside s t ∧
      t.hdr = (s.hdr &&& ~~~bit) ||| (if v then bit else 0x00#8) ∧ t.ulen = s.ulen ∧
      BodyKept s t ∧ Reports t 0 [] .none

/-- A flag query of a codec: one header bit as 0 or 1. -/
def ReadsFlag (op : Byte) (tag : BitVec 3) (bit : Nat) (i : Instr) : Prop :=
  DecodesTo op (fun _ => i) ∧ RefusesOtherTags tag i ∧
  ∀ s : State, s.type = tag →
    ∃ t, exec i s = .next t ∧ SameOutside s t ∧ SameFrame s t ∧
      Reports t (if s.hdr.getLsbD bit then 1 else 0) [] .none

/-- A builder's effect: the frame is the header and these body bytes, the rest of the body as it was; the
radio is handed exactly that frame; the response is the length and the radio's status
(47_framer.md R201). -/
def BuiltAndSent (s t : State) (panId dst : Word16) (hdr : Byte) (content : List Byte)
    (value : Nat) : Prop :=
  t.hdr = hdr ∧ t.ulen = content.length ∧ t.ulen ≤ s.cfg.bodyCap ∧
  (∀ j, t.body j = if j < content.length then content[j]? else s.body j) ∧
  ∃ a, CalledOnce s t (.send panId dst (hdr :: content) (content.length + 1)) a ∧
    Reports t value [] (.status a.status)

/-- A pass-through: one call, its answer verbatim in `resp.rstat`, the frame kept
(48_radio_passthrough.md R230). -/
def Forwards (op : Byte) (decoded : Command → Instr) (i : Instr) (call : RadioCall)
    (answer : RadioAnswer → RStat) : Prop :=
  DecodesTo op decoded ∧
  ∀ s : State, RadioSpeaks s →
    ∃ t a, exec i s = .next t ∧ CalledOnce s t call a ∧ SameFrame s t ∧ Reports t 0 [] (answer a)

/-- Instructions one after another, stopping where one does not complete. -/
def execAll : List Instr → State → Result
  | [], s => .next s
  | i :: is, s =>
    match exec i s with
    | .next t => execAll is t
    | .fault f => .fault f
    | .refused r => .refused r

/-- The state with other bits 7:5 in its header. -/
def withUnusedBits (u : BitVec 3) (s : State) : State :=
  s.setHdr ((s.hdr &&& 0x1F#8) ||| (u.setWidth 8 <<< 5))

/-- What `s` delivered to the radio with its last send is what the radio delivers to `r` next. -/
def Delivers (t r : State) (sent : List RadioCall) : Prop :=
  ∃ panId dst first rest len a left, t.radioOut = sent ++ [.send panId dst (first :: rest) len] ∧
    r.radioIn = .answers a :: left ∧ a.received = .frame first rest

end Sys2Proof.Machine.Claims

open Sys2Proof Sys2Proof.Machine Sys2Proof.Machine.Claims

/-! ## Parameters, reset, encoding and the step -/

/-- 00_scope.md R7 (with the bounds of R6): the capacities follow from FRAME_MAX. -/
def Obligations.CapacitiesFollowFromFrameMax : Prop :=
  (∀ c : Config, 3 ≤ c.frameMax ∧ c.frameMax ≤ 65535 ∧ c.bodyCap + 1 = c.frameMax ∧
    c.dataCap = c.bodyCap ∧ c.cmdRegion + 1 = c.bodyCap ∧ c.cmdStrMax + 1 = c.cmdRegion ∧
    c.noticeRegion = c.bodyCap ∧ c.noticeStrMax + 1 = c.noticeRegion) ∧
  Config.default.frameMax = 240 ∧ Config.default.bodyCap = 239 ∧ Config.default.dataCap = 239 ∧
  Config.default.cmdRegion = 238 ∧ Config.default.cmdStrMax = 237 ∧
  Config.default.noticeRegion = 239 ∧ Config.default.noticeStrMax = 238

/-- 00_scope.md R12: `cstr(s)` is the prefix of `s` before its first NUL, or all of `s`. -/
def Obligations.CstrIsThePrefixBeforeTheFirstNul : Prop :=
  (∀ pre post : List Byte, nul ∉ pre → cstr (pre ++ nul :: post) = pre) ∧
  (∀ s : List Byte, nul ∉ s → cstr s = s) ∧
  cstr [0x73#8, 0x74#8, 0x61#8, 0x74#8, 0x75#8, 0x73#8, 0x00#8, 0x6F#8] =
    [0x73#8, 0x74#8, 0x61#8, 0x74#8, 0x75#8, 0x73#8]

/-- 10_state.md R36, the values the spec gives: the header, `ulen` and the body; the response registers
are unspecified there and are not stated. -/
def Obligations.ResetLeavesAnEmptyFrame : Prop :=
  State.reset.hdr = 0x00#8 ∧ State.reset.ulen = 0 ∧ (∀ i, State.reset.body i = none) ∧
  State.reset.radioOut = [] ∧
  ∀ s : State, ∃ t, exec .fbInit s = .next t ∧ t.hdr = State.reset.hdr ∧
    t.ulen = State.reset.ulen ∧ BodyKept s t

/-- 70_reset_and_hazards.md R330, R332: the reset event, from any state, puts the frame in the reset
state and makes no radio call. That the host presents it in line with its commands, and that the commands
after it stay presented (`SameOutside (s.withPort left) t`), is the model's choice (log entry 14). -/
def Obligations.ResetEventRestoresTheEmptyFrame : Prop :=
  ∀ (s : State) (left : List HostEvent), s.port = .reset :: left →
    ∃ t, step s = .next t ∧ SameOutside (s.withPort left) t ∧ t.hdr = 0x00#8 ∧ t.ulen = 0 ∧
      ∀ i, t.body i = none

/-- A step is exec of the decoded command, after it is taken from the command port (00_scope.md R8,
30_encoding.md R67); with nothing presented the block waits (70_reset_and_hazards.md R331). The port as a
list is the model's own (log entry 1). -/
def Obligations.StepRunsTheDecodedCommand : Prop :=
  (∀ (s : State) (c : Command) (left : List HostEvent) (i : Instr),
    s.port = .command c :: left → decodeCommand c = .ok i → step s = exec i (s.withPort left)) ∧
  (∀ s : State, s.port = [] → step s = .next s)

/-- A word of the opcode table placed by withFetchWord is what the next step runs: a command row from the
command port, a header row out of the held header (log entries 1, 12, 13). -/
def Obligations.PlacedTableWordRunsNext : Prop :=
  (∀ (s : State) (w : Nat) (i : Instr), decodeTableWord 64 w = some i →
    step (s.withFetchWord 64 w) = exec i s) ∧
  (∀ (s : State) (w : Nat) (i : Instr), decodeTableWord 8 w = some i →
    step (s.withFetchWord 8 w) = exec i (s.setHdr (BitVec.ofNat 8 w)))

/-- Decode of encode is the identity on every well-formed instruction, with every operand at every value. -/
def Obligations.DecodeOfEncodeIsTheInstruction : Prop :=
  ∀ i : Instr, i.wellFormed = true → decode (encode i) = .ok i

/-- 30_encoding.md R65: only `OP` and the reserved byte decide legality, and fields that the row does not
read take no part. -/
def Obligations.UnreadFieldsTakeNoPart : Prop :=
  ∀ c c' : Command, c.op = c'.op → c.reserved = c'.reserved →
    ((∃ i, decodeCommand c = .ok i) ↔ ∃ i, decodeCommand c' = .ok i) ∧
    ((∀ i, decodeRow c = some i → ∀ o ∈ operands i, SameField c c' o) →
      decodeCommand c = decodeCommand c')

/-- 30_encoding.md R68: the illegal command words, their cause values, and that they change no state. -/
def Obligations.IllegalWordsRaiseIllegalOp : Prop :=
  ∀ (s : State) (c : Command) (left : List HostEvent), s.port = .command c :: left →
    (Unassigned c.op.toNat →
      ∃ t, step s = .next t ∧ SameOutside (s.withPort left) t ∧ SameFrame s t ∧
        Raises t 0x08#8 c.op.toNat) ∧
    (¬ Unassigned c.op.toNat → c.reserved ≠ 0x00#8 →
      ∃ t, step s = .next t ∧ SameOutside (s.withPort left) t ∧ SameFrame s t ∧
        Raises t 0x08#8 c.reserved.toNat)

/-- Words written out from 30_encoding.md R63 and R66 decode to the instructions they stand for. -/
def Obligations.WrittenOutWordsDecode : Prop :=
  decodeCommand ⟨0x0000000000000B02#64, []⟩ = .ok (.fbSetType 3) ∧
  decodeCommand ⟨0x0000000000EE7E07#64, []⟩ = .ok (.fbBodyWrite 238 0x7E) ∧
  decodeCommand ⟨0x000000000000FE14#64, []⟩ = .ok (.dataSetFragmented false) ∧
  decodeCommand ⟨0x0000000112341063#64, [0x73#8]⟩ =
    .ok (.txSendCommandWithAck 0x1234 0x0001 0x10 [0x73]) ∧
  decodeCommand ⟨0x00140064ABCD2471#64, []⟩ = .ok (.radioBegin 36 0xABCD 100 20) ∧
  decodeCommand ⟨0x00FFFFFFFFFF0003#64, [0x01#8]⟩ = .ok .fbGetType ∧
  decodeCommand ⟨0xFFFFFFFFFFFF0003#64, []⟩ = .error (.reservedByte 0xFF) ∧
  decodeHeader 0x1D#8 = .hdrTagReserved 5 true true 0

/-- 30_encoding.md R60, R61: the header byte's format, its formula, and its type-tag decode table. -/
def Obligations.HeaderByteDecodesByItsTag : Prop :=
  (∀ h : Byte, (headerType h).toNat = h.toNat % 8 ∧ headerRR h = h.getLsbD 3 ∧
    headerFrag h = h.getLsbD 4 ∧
    (h &&& 0x07#8 = 0x00#8 → decodeHeader h = .hdrTagData (headerRR h) (headerFrag h) (headerUnused h)) ∧
    (h &&& 0x07#8 = 0x01#8 →
      decodeHeader h = .hdrTagCommand (headerRR h) (headerFrag h) (headerUnused h)) ∧
    (h &&& 0x07#8 = 0x02#8 → decodeHeader h = .hdrTagAck (headerRR h) (headerFrag h) (headerUnused h)) ∧
    (h &&& 0x07#8 = 0x03#8 →
      decodeHeader h = .hdrTagNotice (headerRR h) (headerFrag h) (headerUnused h)) ∧
    (h &&& 0x04#8 = 0x04#8 →
      decodeHeader h =
        .hdrTagReserved (headerType h) (headerRR h) (headerFrag h) (headerUnused h))) ∧
  ∀ (type : BitVec 3) (rr frag : Bool),
    packHeader type rr frag 0 =
      (type.setWidth 8 &&& 0b111#8) ||| ((if rr then 1#8 else 0#8) <<< 3) |||
        ((if frag then 1#8 else 0#8) <<< 4)

/-! ## Frame buffer -/

/-- 41_frame_buffer.md R100. -/
def Obligations.FbInitClearsHeaderAndLength : Prop :=
  DecodesTo 0x01#8 (fun _ => .fbInit) ∧
  ∀ s : State, ∃ t, exec .fbInit s = .next t ∧ SameOutside s t ∧ t.hdr = 0x00#8 ∧ t.ulen = 0 ∧
    BodyKept s t ∧ Reports t 0 [] .none ∧ exec .fbInit t = .next t

/-- 41_frame_buffer.md R101. -/
def Obligations.FbSetTypeWritesTheTagAlone : Prop :=
  DecodesTo 0x02#8 (fun c => .fbSetType (c.a.extractLsb' 0 3)) ∧
  ∀ (tag : BitVec 3) (s : State),
    ∃ t, exec (.fbSetType tag) s = .next t ∧ SameOutside s t ∧
      t.hdr = (s.hdr &&& 0xF8#8) ||| tag.setWidth 8 ∧ t.ulen = s.ulen ∧ BodyKept s t ∧
      Reports t 0 [] .none ∧
      ∃ u, exec .fbGetType t = .next u ∧ Reports u tag.toNat [] .none

/-- 41_frame_buffer.md R102, R104. -/
def Obligations.FbGettersReadHeaderFields : Prop :=
  DecodesTo 0x03#8 (fun _ => .fbGetType) ∧
  DecodesTo 0x05#8 (fun c =>
    .fbGetFlag (if c.a.getLsbD 1 then .fragmented else .responseRequested)) ∧
  ∀ s : State,
    (∃ t, exec .fbGetType s = .next t ∧ SameOutside s t ∧ SameFrame s t ∧
      Reports t (s.hdr.toNat % 8) [] .none) ∧
    (∃ t, exec (.fbGetFlag .responseRequested) s = .next t ∧ SameOutside s t ∧ SameFrame s t ∧
      Reports t (if s.hdr.getLsbD 3 then 1 else 0) [] .none) ∧
    (∃ t, exec (.fbGetFlag .fragmented) s = .next t ∧ SameOutside s t ∧ SameFrame s t ∧
      Reports t (if s.hdr.getLsbD 4 then 1 else 0) [] .none)

/-- 41_frame_buffer.md R103, with its corner case: setting then clearing a flag restores every other bit. -/
def Obligations.FbSetFlagWritesOneBit : Prop :=
  DecodesTo 0x04#8 (fun c =>
    .fbSetFlag (if c.a.getLsbD 1 then .fragmented else .responseRequested) (c.a.getLsbD 0)) ∧
  ∀ (v : Bool) (s : State),
    (∃ t, exec (.fbSetFlag .responseRequested v) s = .next t ∧ SameOutside s t ∧
      t.hdr = (s.hdr &&& 0xF7#8) ||| (if v then 0x08#8 else 0x00#8) ∧ t.ulen = s.ulen ∧
      BodyKept s t ∧ Reports t 0 [] .none) ∧
    (∃ t, exec (.fbSetFlag .fragmented v) s = .next t ∧ SameOutside s t ∧
      t.hdr = (s.hdr &&& 0xEF#8) ||| (if v then 0x10#8 else 0x00#8) ∧ t.ulen = s.ulen ∧
      BodyKept s t ∧ Reports t 0 [] .none) ∧
    ∃ t, execAll [.fbSetFlag .fragmented true, .fbSetFlag .fragmented false] s = .next t ∧
      t.hdr = s.hdr &&& 0xEF#8

/-- 41_frame_buffer.md R105. An UNWRITTEN byte reads as some byte (10_state.md R24). -/
def Obligations.FbBodyReadIsBoundedByCapacity : Prop :=
  DecodesTo 0x06#8 (fun c => .fbBodyRead c.p) ∧
  ∀ (index : Word16) (s : State),
    (s.cfg.bodyCap ≤ index.toNat →
      ∃ t, exec (.fbBodyRead index) s = .next t ∧ SameOutside s t ∧ SameFrame s t ∧
        Raises t 0x07#8 index.toNat) ∧
    (index.toNat < s.cfg.bodyCap →
      ∃ t, ∃ v : Byte, exec (.fbBodyRead index) s = .next t ∧ SameOutside s t ∧ SameFrame s t ∧
        Reports t v.toNat [] .none ∧
        ∀ v', s.body index.toNat = some v' → v = v')

/-- 41_frame_buffer.md R106. -/
def Obligations.FbBodyWriteStoresOneByte : Prop :=
  DecodesTo 0x07#8 (fun c => .fbBodyWrite c.p c.a) ∧
  ∀ (index : Word16) (value : Byte) (s : State),
    (s.cfg.bodyCap ≤ index.toNat →
      ∃ t, exec (.fbBodyWrite index value) s = .next t ∧ SameOutside s t ∧ SameFrame s t ∧
        Raises t 0x07#8 index.toNat) ∧
    (index.toNat < s.cfg.bodyCap →
      ∃ t, exec (.fbBodyWrite index value) s = .next t ∧ SameOutside s t ∧ t.hdr = s.hdr ∧
        t.ulen = s.ulen ∧ t.body index.toNat = some value ∧
        (∀ j, j ≠ index.toNat → t.body j = s.body j) ∧ Reports t 0 [] .none)

/-- 41_frame_buffer.md R107. -/
def Obligations.FbResetLengthIsBoundedByCapacity : Prop :=
  DecodesTo 0x08#8 (fun c => .fbResetLength c.p) ∧
  ∀ (n : Word16) (s : State),
    (s.cfg.bodyCap < n.toNat →
      ∃ t, exec (.fbResetLength n) s = .next t ∧ SameOutside s t ∧ SameFrame s t ∧
        Raises t 0x03#8 n.toNat) ∧
    (n.toNat ≤ s.cfg.bodyCap →
      ∃ t, exec (.fbResetLength n) s = .next t ∧ SameOutside s t ∧ t.hdr = s.hdr ∧
        t.ulen = n.toNat ∧ BodyKept s t ∧ Reports t 0 [] .none)

/-- 41_frame_buffer.md R108, under the invariant of 10_state.md R26. -/
def Obligations.FbWireLengthCountsTheHeader : Prop :=
  DecodesTo 0x09#8 (fun _ => .fbWireLength) ∧
  ∀ s : State, s.ulen ≤ s.cfg.bodyCap →
    ∃ t, exec .fbWireLength s = .next t ∧ SameOutside s t ∧ SameFrame s t ∧
      Reports t (s.ulen + 1) [] .none ∧ s.ulen + 1 ≤ s.cfg.frameMax

/-! ## Codecs -/

/-- 42_data.md R120, 43_command.md R140, 44_ack.md R160, 45_notice.md R180: the four `*_INIT`. -/
def Obligations.VariantInitStampsTheTag : Prop :=
  InitStamps 0x10#8 0x00#8 .dataInit ∧ InitStamps 0x20#8 0x01#8 .cmdInit ∧
  InitStamps 0x30#8 0x02#8 .ackInit ∧ InitStamps 0x40#8 0x03#8 .ntcInit

/-- 40_codec_common.md R90: every codec operation but the `*_INIT` checks the tag first. -/
def Obligations.CodecAccessorsCheckTheTag : Prop :=
  ∀ (i : Instr) (tag : BitVec 3), accessorTag i = some tag → RefusesOtherTags tag i

/-- 42_data.md R121. -/
def Obligations.DataSetStoresUpToCapacity : Prop :=
  DecodesTo 0x11#8 (fun c => .dataSet c.str) ∧ (∀ str, RefusesOtherTags 0 (.dataSet str)) ∧
  ∀ (str : List Byte) (s : State), s.type = 0 →
    ∃ t n, n = min str.length s.cfg.dataCap ∧ exec (.dataSet str) s = .next t ∧
      SameOutside s t ∧ t.hdr = s.hdr ∧ t.ulen = n ∧ (∀ j, j < n → t.body j = str[j]?) ∧
      (∀ j, n ≤ j → t.body j = s.body j) ∧ Reports t n [] .none

/-- 42_data.md R122, R123, under the invariant of 10_state.md R26. An UNWRITTEN byte reads as some byte. -/
def Obligations.DataGettersReadTheUsedBody : Prop :=
  DecodesTo 0x12#8 (fun _ => .dataGet) ∧ DecodesTo 0x13#8 (fun _ => .dataGetLength) ∧
  RefusesOtherTags 0 .dataGet ∧ RefusesOtherTags 0 .dataGetLength ∧
  ∀ s : State, s.type = 0 → s.ulen ≤ s.cfg.bodyCap →
    (∃ t bytes, exec .dataGet s = .next t ∧ SameOutside s t ∧ SameFrame s t ∧
      Reports t s.ulen bytes .none ∧ bytes.length = s.ulen ∧
      ∀ j v, j < s.ulen → s.body j = some v → bytes[j]? = some v) ∧
    (∃ t, exec .dataGetLength s = .next t ∧ SameOutside s t ∧ SameFrame s t ∧
      Reports t s.ulen [] .none)

/-- 42_data.md R124, R125. -/
def Obligations.DataFragmentedFlagIsFrag : Prop :=
  SetsFlag 0x14#8 0 0x10#8 .dataSetFragmented ∧ ReadsFlag 0x15#8 0 4 .dataIsFragmented

/-- 43_command.md R141, 44_ack.md R161. -/
def Obligations.SetCodeWritesTheFirstBodyByte : Prop :=
  SetsCode 0x21#8 1 .cmdSetCode ∧ SetsCode 0x31#8 2 .ackSetCode

/-- 43_command.md R142, 44_ack.md R162. -/
def Obligations.GetCodeReadsTheFirstBodyByte : Prop :=
  GetsCode 0x22#8 1 .cmdGetCode ∧ GetsCode 0x32#8 2 .ackGetCode

/-- 43_command.md R143, 44_ack.md R163, 45_notice.md R181. -/
def Obligations.StringSettersTruncateAndTerminate : Prop :=
  SetsString 0x23#8 1 1 Config.cmdRegion .cmdSetParam ∧
  SetsString 0x33#8 2 1 Config.cmdRegion .ackSetResponse ∧
  SetsString 0x41#8 3 0 Config.noticeRegion .ntcSet

/-- 43_command.md R144, R145, 44_ack.md R164, R165, 45_notice.md R182, R183. -/
def Obligations.StringGettersScanForTheTerminator : Prop :=
  ScansString 0x24#8 1 1 true .cmdGetParam ∧ ScansString 0x25#8 1 1 false .cmdGetParamLength ∧
  ScansString 0x34#8 2 1 true .ackGetResponse ∧
  ScansString 0x35#8 2 1 false .ackGetResponseLength ∧
  ScansString 0x42#8 3 0 true .ntcGet ∧ ScansString 0x43#8 3 0 false .ntcGetLength

/-- 43_command.md R146, R147, R148. -/
def Obligations.CommandResponseRequestedFlagIsRR : Prop :=
  (DecodesTo 0x26#8 (fun _ => .cmdEnableAckRequest) ∧ RefusesOtherTags 1 .cmdEnableAckRequest ∧
    ∀ s : State, s.type = 1 →
      ∃ t, exec .cmdEnableAckRequest s = .next t ∧ SameOutside s t ∧ t.hdr = s.hdr ||| 0x08#8 ∧
        t.ulen = s.ulen ∧ BodyKept s t ∧ Reports t 0 [] .none) ∧
  SetsFlag 0x27#8 1 0x08#8 .cmdSetResponseRequested ∧
  ReadsFlag 0x28#8 1 3 .cmdIsResponseRequested

/-! ## Dispatch -/

/-- 46_dispatch.md R190. -/
def Obligations.PktResolveClassifiesTheTag : Prop :=
  DecodesTo 0x50#8 (fun _ => .pktResolve) ∧
  ∀ s : State,
    (s.hdr.toNat % 8 < 4 →
      ∃ t, exec .pktResolve s = .next t ∧ SameOutside s t ∧ SameFrame s t ∧
        Reports t (s.hdr.toNat % 8) [] .none) ∧
    (4 ≤ s.hdr.toNat % 8 →
      ∃ t, exec .pktResolve s = .next t ∧ SameOutside s t ∧ SameFrame s t ∧
        Raises t 0x02#8 ((s.hdr.toNat % 8 : Nat) : Int))

/-- The header-tag rows (30_encoding.md R61, 46_dispatch.md R190): each answers its variant, the reserved
one "unknown packet type". That a row is an instruction of its own is the model's choice (log entry 12). -/
def Obligations.HeaderRowsAnswerTheirVariant : Prop :=
  ∀ (rr frag : Bool) (unused : BitVec 3) (s : State),
    (∃ t, exec (.hdrTagData rr frag unused) s = .next t ∧ SameOutside s t ∧ SameFrame s t ∧
      Reports t 0 [] .none) ∧
    (∃ t, exec (.hdrTagCommand rr frag unused) s = .next t ∧ SameOutside s t ∧ SameFrame s t ∧
      Reports t 1 [] .none) ∧
    (∃ t, exec (.hdrTagAck rr frag unused) s = .next t ∧ SameOutside s t ∧ SameFrame s t ∧
      Reports t 2 [] .none) ∧
    (∃ t, exec (.hdrTagNotice rr frag unused) s = .next t ∧ SameOutside s t ∧ SameFrame s t ∧
      Reports t 3 [] .none) ∧
    ∀ tag : BitVec 3,
      ∃ t, exec (.hdrTagReserved tag rr frag unused) s = .next t ∧ SameOutside s t ∧
        SameFrame s t ∧ Raises t 0x02#8 tag.toNat

/-- PKT_RESOLVE runs exactly the header-tag row that the held header decodes to, and depends on the type
tag alone (46_dispatch.md R190: "Pure function of the header's type tag; stateless"; log entry 12). -/
def Obligations.PktResolveRunsTheHeaderRow : Prop :=
  (∀ s : State, exec .pktResolve s = exec (decodeHeader s.hdr) s) ∧
  ∀ (s : State) (m : Memory), headerType ((s.withMem m).hdr) = headerType s.hdr →
    ∀ t, exec .pktResolve s = .next t → exec .pktResolve (s.withMem m) = .next (t.withMem m)

/-! ## Packet framer -/

/-- 47_framer.md R200, under the invariant of 10_state.md R26 and with a radio that answers. An UNWRITTEN
byte goes out as some byte. -/
def Obligations.TxSendHandsTheFrameToTheRadio : Prop :=
  DecodesTo 0x60#8 (fun c => .txSend c.p c.q) ∧
  ∀ (panId dst : Word16) (s : State), s.ulen ≤ s.cfg.bodyCap → RadioSpeaks s →
    ∃ t a bytes, exec (.txSend panId dst) s = .next t ∧
      CalledOnce s t (.send panId dst bytes (s.ulen + 1)) a ∧ SameFrame s t ∧
      bytes.length = s.ulen + 1 ∧ bytes.head? = some s.hdr ∧
      (∀ j v, j < s.ulen → s.body j = some v → bytes[j + 1]? = some v) ∧
      Reports t (s.ulen + 1) [] (.status a.status)

/-- 47_framer.md R202, with a radio that answers. -/
def Obligations.TxSendDataSendsOneDataFrame : Prop :=
  DecodesTo 0x61#8 (fun c => .txSendData c.p c.q (c.a.getLsbD 0) c.str) ∧
  ∀ (panId dst : Word16) (fragment : Bool) (str : List Byte) (s : State), RadioSpeaks s →
    ∃ t, exec (.txSendData panId dst fragment str) s = .next t ∧
      BuiltAndSent s t panId dst
        (if fragment = true ∨ s.cfg.dataCap < str.length then 0x10#8 else 0x00#8)
        (str.take s.cfg.dataCap) (min str.length s.cfg.dataCap)

/-- 47_framer.md R203, R204, R205, with a radio that answers. -/
def Obligations.TxCommandAndAckBuildersSendOneFrame : Prop :=
  DecodesTo 0x62#8 (fun c => .txSendCommand c.p c.q c.a c.str) ∧
  DecodesTo 0x63#8 (fun c => .txSendCommandWithAck c.p c.q c.a c.str) ∧
  DecodesTo 0x64#8 (fun c => .txSendAck c.p c.q c.a c.str) ∧
  ∀ (panId dst : Word16) (cmd : Byte) (str : List Byte) (s : State), RadioSpeaks s →
    ∀ content value, content = cmd :: ((cstr str).take s.cfg.cmdStrMax ++ [nul]) →
      value = min (cstr str).length s.cfg.cmdStrMax →
    (∃ t, exec (.txSendCommand panId dst cmd str) s = .next t ∧
      BuiltAndSent s t panId dst 0x01#8 content value) ∧
    (∃ t, exec (.txSendCommandWithAck panId dst cmd str) s = .next t ∧
      BuiltAndSent s t panId dst 0x09#8 content value) ∧
    (∃ t, exec (.txSendAck panId dst cmd str) s = .next t ∧
      BuiltAndSent s t panId dst 0x02#8 content value)

/-- 47_framer.md R206, with a radio that answers. -/
def Obligations.TxSendNoticeSendsOneNoticeFrame : Prop :=
  DecodesTo 0x65#8 (fun c => .txSendNotice c.p c.q c.str) ∧
  ∀ (panId dst : Word16) (str : List Byte) (s : State), RadioSpeaks s →
    ∃ t, exec (.txSendNotice panId dst str) s = .next t ∧
      BuiltAndSent s t panId dst 0x03#8 ((cstr str).take s.cfg.noticeStrMax ++ [nul])
        (min (cstr str).length s.cfg.noticeStrMax)

/-- 47_framer.md R207, with a radio that answers: no data, too much data, or one frame committed whole.
That `resp.rstat` is none after a good receive is the model's choice: R207 does not name the register and
10_state.md R29 is read to give it none (log entry 16, DEDUCED, unsafe). -/
def Obligations.RxListenCommitsOnlyAGoodReceive : Prop :=
  DecodesTo 0x66#8 (fun _ => .rxListen) ∧
  ∀ s : State, RadioSpeaks s →
    ∃ t a, exec .rxListen s = .next t ∧ CalledOnce s t (.readData s.cfg.frameMax) a ∧
      (a.received.length ≤ 0 → SameFrame s t ∧ Raises t 0x01#8 a.received.length) ∧
      ((s.cfg.frameMax : Int) < a.received.length →
        SameFrame s t ∧ Raises t 0x09#8 a.received.length) ∧
      (1 ≤ a.received.length → a.received.length ≤ s.cfg.frameMax →
        (∀ i, t.mem.read i =
          if i < a.received.bytes.length then a.received.bytes[i]? else s.mem.read i) ∧
        ((t.ulen : Int) + 1 = a.received.length) ∧
        Reports t a.received.bytes.length [] .none)

/-- 70_reset_and_hazards.md R341: a radio that never answers leaves every operation that calls it without
completion, never with some answer. -/
def Obligations.SilentRadioNeverCompletes : Prop :=
  ∀ (i : Instr) (s : State), callsRadio i = true → s.radioIn.head? = some .silent →
    s.ulen ≤ s.cfg.bodyCap → exec i s = .fault .radioNeverAnswers

/-! ## Radio pass-through -/

/-- 48_radio_passthrough.md R231 to R241, with a radio that answers. -/
def Obligations.RadioOperationsForwardOneCall : Prop :=
  Forwards 0x70#8 (fun _ => .radioInit) .radioInit .init (fun a => .status a.status) ∧
  (∀ channel panId rate power,
    Forwards 0x71#8 (fun c => .radioBegin c.a c.p c.q c.r) (.radioBegin channel panId rate power)
      (.begin channel panId rate power) (fun a => .status a.status)) ∧
  Forwards 0x72#8 (fun _ => .radioEnd) .radioEnd .close (fun a => .status a.status) ∧
  Forwards 0x73#8 (fun _ => .radioRxEnable) .radioRxEnable .rxEnable (fun a => .status a.status) ∧
  Forwards 0x74#8 (fun _ => .radioRxDisable) .radioRxDisable .rxDisable
    (fun a => .status a.status) ∧
  Forwards 0x75#8 (fun _ => .radioGetSendMode) .radioGetSendMode .getSendMode
    (fun a => .mode a.sendMode) ∧
  (∀ addrType txRetry,
    Forwards 0x76#8 (fun c => .radioSetSendMode c.a c.r) (.radioSetSendMode addrType txRetry)
      (.setSendMode addrType txRetry) (fun a => .status a.status)) ∧
  (∀ v, Forwards 0x77#8 (fun c => .radioSetAckReq (c.a.getLsbD 0)) (.radioSetAckReq v)
    (.setAckReq v) (fun a => .status a.status)) ∧
  (∀ v, Forwards 0x78#8 (fun c => .radioSetBroadcastEnb (c.a.getLsbD 0)) (.radioSetBroadcastEnb v)
    (.setBroadcastEnb v) (fun a => .status a.status)) ∧
  (∀ v, Forwards 0x79#8 (fun c => .radioSetPromiscuous (c.a.getLsbD 0)) (.radioSetPromiscuous v)
    (.setPromiscuous v) (fun a => .status a.status)) ∧
  Forwards 0x7A#8 (fun _ => .radioGetMyAddress) .radioGetMyAddress .getMyAddress
    (fun a => .address a.address)

/-! ## Rules of the whole machine -/

/-- The invariant holds at reset. That the response registers are legal there rests on log entry 2. -/
def Obligations.ResetMeetsTheInvariant : Prop := State.reset.Inv

/-- Every step keeps the invariant: the memory stays canonical and inside the frame address space,
`ulen <= BODY_CAP`, and the response registers tell a status of 60_exceptions.md R300.
Where the step takes the reset event, that the response registers are legal after it is the model's choice:
the spec leaves them unspecified there (10_state.md R36), and the clause rests on the reset values of log
entry 2 (DESIGN CHOICE, unsafe) and on the reset event of log entry 14. -/
def Obligations.StepKeepsTheInvariant : Prop :=
  ∀ s t : State, s.Inv → step s = .next t → t.Inv

/-- No command and no error stops the block: from every state that meets the invariant a step completes,
unless the radio never answers (60_exceptions.md R302, R303; 30_encoding.md R67).
Where the event presented is the reset event, that the response registers are legal after it is the model's
choice: it rests on the reset values of log entry 2 (DESIGN CHOICE, unsafe) and on the reset event of log
entry 14. -/
def Obligations.StepCompletesUnlessTheRadioIsSilent : Prop :=
  ∀ s : State, s.Inv → RadioSpeaks s → ∃ t, step s = .next t ∧ t.Inv

/-- 60_exceptions.md R303, R301: after a status other than OK the frame is as before the command, no result
is left, and only RX_LISTEN has called the radio; every status records the cause value of R301. -/
def Obligations.ErrorsLeaveTheFrameAsItWas : Prop :=
  ∀ (s t : State) (c : Command) (left : List HostEvent), s.port = .command c :: left →
    step s = .next t →
    CauseOf s c t.resp.status t.resp.info ∧
    (t.resp.status ≠ 0x00#8 →
      t.mem = s.mem ∧ t.ulen = s.ulen ∧ t.resp.value = 0#16 ∧ t.resp.bytes = [] ∧
        t.resp.rstat = .none ∧ (t.radioOut = s.radioOut ∨ decodeCommand c = .ok .rxListen))

/-- 60_exceptions.md R304: which operations can produce which status.
The clauses for the five header-tag rows, which the table of R304 does not have (UNKNOWN_TYPE for
HDR_TAG_RESERVED, OK for the other four), are the model's choice (log entry 12). -/
def Obligations.EachStatusComesFromItsOperations : Prop :=
  (∀ (i : Instr) (s t : State), exec i s = .next t → t.resp.status.toNat ∈ mayReport i) ∧
  ∀ (s t : State) (c : Command) (left : List HostEvent), s.port = .command c :: left →
    step s = .next t → (t.resp.status = 0x08#8 ↔ ∀ i, decodeCommand c ≠ .ok i)

/-- An operation makes at most one radio call, and exactly one if it is of the framer's sends, RX_LISTEN or
a pass-through; the parameter and the host's side never change (00_scope.md R8; 48_radio_passthrough.md
R230). -/
def Obligations.AtMostOneRadioCallPerOperation : Prop :=
  ∀ (i : Instr) (s t : State), exec i s = .next t →
    t.cfg = s.cfg ∧ t.port = s.port ∧
    (if callsRadio i then (∃ c, t.radioOut = s.radioOut ++ [c]) ∧ t.radioIn = s.radioIn.tail
     else t.radioOut = s.radioOut ∧ t.radioIn = s.radioIn)

/-- 10_state.md R23: no operation's result depends on bits 7:5 of the header, except the bytes TX_SEND
hands to the radio. -/
def Obligations.UnusedHeaderBitsAreNeverInterpreted : Prop :=
  ∀ (i : Instr) (u : BitVec 3) (s t : State), exec i s = .next t →
    ∃ t', exec i (withUnusedBits u s) = .next t' ∧ t'.resp = t.resp ∧ t'.ulen = t.ulen ∧
      BodyKept t t' ∧ t'.hdr &&& 0x1F#8 = t.hdr &&& 0x1F#8 ∧ t'.radioIn = t.radioIn ∧
      ((∃ panId dst, i = .txSend panId dst) ∨ t'.radioOut = t.radioOut)

/-- The header's fields, the used length and the body are written only by the operations the spec lists
for each (10_state.md R21, R22, R25; 20_memory.md R42). -/
def Obligations.OnlyTheListedOperationsWriteTheFrame : Prop :=
  ∀ (i : Instr) (s t : State), exec i s = .next t →
    (writesWholeHeader i = false → t.hdr &&& 0xE0#8 = s.hdr &&& 0xE0#8) ∧
    (writesType i = false → t.hdr &&& 0x07#8 = s.hdr &&& 0x07#8) ∧
    (writesRR i = false → t.hdr.getLsbD 3 = s.hdr.getLsbD 3) ∧
    (writesFrag i = false → t.hdr.getLsbD 4 = s.hdr.getLsbD 4) ∧
    (writesLength i = false → t.ulen = s.ulen) ∧
    (writesBody i = false → BodyKept s t)

/-- 10_state.md R37: no operation clears a body byte, and the bytes past `ulen` keep what was left there
across every operation but FB_BODY_WRITE. -/
def Obligations.BodyPastTheUsedLengthIsKept : Prop :=
  ∀ (i : Instr) (s t : State), exec i s = .next t →
    (∀ j, s.body j ≠ none → t.body j ≠ none) ∧
    ((∀ index value, i ≠ .fbBodyWrite index value) → ∀ j, t.ulen ≤ j → t.body j = s.body j)

/-- 10_state.md R29: the response registers after a transaction do not depend on those before it. -/
def Obligations.ResponsesDependOnTheTransactionAlone : Prop :=
  ∀ (i : Instr) (s : State) (r : Resp), exec i (s.withResp r) = exec i s

/-- 20_memory.md R48: repeating at once an operation that does not call the radio leaves the same frame,
and the same state in every part where the first run drew no UNWRITTEN byte. -/
def Obligations.RepeatingAnOperationLeavesTheSameState : Prop :=
  ∀ (i : Instr) (s t : State), s.Inv → callsRadio i = false → exec i s = .next t →
    (∀ u, exec i t = .next u → SameFrame t u) ∧ (t.draws = s.draws → exec i t = .next t)

/-! ## Whole exchanges -/

/-- Encoding then decoding gives back what was set, cut at the capacity (95_test_vectors.md W1, W3; the
Ack and Notice codecs alike). -/
def Obligations.CodecRoundTripsGiveBackWhatWasSet : Prop :=
  ∀ s : State,
    (∀ str : List Byte, ∃ t, execAll [.dataInit, .dataSet str, .dataGet] s = .next t ∧
      t.resp.bytes = str.take s.cfg.dataCap ∧ headerFrag t.hdr = false) ∧
    (∀ (cmd : Byte) (str : List Byte), ∃ t u,
      execAll [.cmdInit, .cmdSetCode cmd, .cmdSetParam str, .cmdGetParam] s = .next t ∧
      t.resp.bytes = (cstr str).take s.cfg.cmdStrMax ∧
      exec .cmdGetCode t = .next u ∧ u.resp.value.toNat = cmd.toNat) ∧
    (∀ (cmd : Byte) (str : List Byte), ∃ t u,
      execAll [.ackInit, .ackSetCode cmd, .ackSetResponse str, .ackGetResponse] s = .next t ∧
      t.resp.bytes = (cstr str).take s.cfg.cmdStrMax ∧
      exec .ackGetCode t = .next u ∧ u.resp.value.toNat = cmd.toNat) ∧
    ∀ str : List Byte, ∃ t, execAll [.ntcInit, .ntcSet str, .ntcGet] s = .next t ∧
      t.resp.bytes = (cstr str).take s.cfg.noticeStrMax

/-- A text frame sent by one block and delivered unchanged to another of the same FRAME_MAX is read there as
what was sent, whatever either block held before (47_framer.md R209). -/
def Obligations.DeliveredTextFramesReadAsSent : Prop :=
  ∀ (s t r : State) (panId dst : Word16) (cmd : Byte) (str : List Byte), r.cfg = s.cfg →
    Delivers t r s.radioOut →
    (exec (.txSendCommand panId dst cmd str) s = .next t ∨
      exec (.txSendCommandWithAck panId dst cmd str) s = .next t →
      ∃ u v w, execAll [.rxListen, .cmdGetParam] r = .next u ∧
        u.resp.bytes = (cstr str).take s.cfg.cmdStrMax ∧
        exec .cmdGetCode u = .next v ∧ v.resp.value.toNat = cmd.toNat ∧
        exec .cmdIsResponseRequested v = .next w ∧
        (w.resp.value = 1#16 ↔ exec (.txSendCommandWithAck panId dst cmd str) s = .next t)) ∧
    (exec (.txSendAck panId dst cmd str) s = .next t →
      ∃ u v, execAll [.rxListen, .ackGetResponse] r = .next u ∧
        u.resp.bytes = (cstr str).take s.cfg.cmdStrMax ∧
        exec .ackGetCode u = .next v ∧ v.resp.value.toNat = cmd.toNat) ∧
    (exec (.txSendNotice panId dst str) s = .next t →
      ∃ u, execAll [.rxListen, .ntcGet] r = .next u ∧
        u.resp.bytes = (cstr str).take s.cfg.noticeStrMax)

/-- A data frame sent by one block and delivered unchanged to another of the same FRAME_MAX is read there as
the data sent, cut at the capacity, and says whether it was cut or marked (47_framer.md R209, R202). -/
def Obligations.DeliveredDataFramesReadAsSent : Prop :=
  ∀ (s t r : State) (panId dst : Word16) (fragment : Bool) (str : List Byte), r.cfg = s.cfg →
    exec (.txSendData panId dst fragment str) s = .next t → Delivers t r s.radioOut →
    ∃ u v, execAll [.rxListen, .dataGet] r = .next u ∧
      u.resp.bytes = str.take s.cfg.dataCap ∧
      exec .dataIsFragmented u = .next v ∧
      (v.resp.value = 1#16 ↔ fragment = true ∨ s.cfg.dataCap < str.length)

/-- A received frame sent on with TX_SEND goes out byte for byte as it came, header bits 7:5 and reserved
tags included (10_state.md R23; 47_framer.md R200, R207). -/
def Obligations.ReceivedFramesAreSentOnUnchanged : Prop :=
  ∀ (s : State) (panId dst : Word16) (a a' : RadioAnswer) (left : List RadioReply) (first : Byte)
    (rest : List Byte), s.radioIn = .answers a :: .answers a' :: left →
    a.received = .frame first rest → rest.length + 1 ≤ s.cfg.frameMax →
    ∃ t, execAll [.rxListen, .txSend panId dst] s = .next t ∧
      t.radioOut = s.radioOut ++
        [.readData s.cfg.frameMax, .send panId dst (first :: rest) (rest.length + 1)] ∧
      t.resp.rstat = .status a'.status

/-- The shared-buffer hazard of 70_reset_and_hazards.md R340, its example, and that the lost frame cannot be
read back through its codec. -/
def Obligations.InterleavedInitsLoseTheFirstFrame : Prop :=
  ∀ (s : State) (str : List Byte), ∃ t,
    execAll [.cmdInit, .ntcInit, .cmdSetParam str] s = .next t ∧ t.hdr = 0x03#8 ∧ t.ulen = 0 ∧
      BodyKept s t ∧ SameOutside s t ∧ Raises t 0x04#8 3
end

