-- ==== Sys2Proof/Laws/Decode.lean ====
section
/-! SUPPORT. Laws of the encodings: the fields of a packed word and of a packed header byte, and the operand readings (30_encoding.md R60, R63, R64). -/

namespace Sys2Proof

section
variable (op a : Byte) (p q : Word16) (r : Byte) (str : List Byte)

@[simp] theorem packWord_op : (Command.mk (packWord op a p q r) str).op = op := by
  ext i hi
  simp only [Command.op, packWord, BitVec.getElem_extractLsb', BitVec.getLsbD_or,
    BitVec.getLsbD_shiftLeft, BitVec.getLsbD_setWidth]
  interval_cases i <;> simp

@[simp] theorem packWord_a : (Command.mk (packWord op a p q r) str).a = a := by
  ext i hi
  simp only [Command.a, packWord, BitVec.getElem_extractLsb', BitVec.getLsbD_or,
    BitVec.getLsbD_shiftLeft, BitVec.getLsbD_setWidth]
  interval_cases i <;> simp

@[simp] theorem packWord_p : (Command.mk (packWord op a p q r) str).p = p := by
  ext i hi
  simp only [Command.p, packWord, BitVec.getElem_extractLsb', BitVec.getLsbD_or,
    BitVec.getLsbD_shiftLeft, BitVec.getLsbD_setWidth]
  interval_cases i <;> simp

@[simp] theorem packWord_q : (Command.mk (packWord op a p q r) str).q = q := by
  ext i hi
  simp only [Command.q, packWord, BitVec.getElem_extractLsb', BitVec.getLsbD_or,
    BitVec.getLsbD_shiftLeft, BitVec.getLsbD_setWidth]
  interval_cases i <;> simp

@[simp] theorem packWord_r : (Command.mk (packWord op a p q r) str).r = r := by
  ext i hi
  simp only [Command.r, packWord, BitVec.getElem_extractLsb', BitVec.getLsbD_or,
    BitVec.getLsbD_shiftLeft, BitVec.getLsbD_setWidth]
  interval_cases i <;> simp

@[simp] theorem packWord_reserved : (Command.mk (packWord op a p q r) str).reserved = 0 := by
  ext i hi
  simp only [Command.reserved, packWord, BitVec.getElem_extractLsb', BitVec.getLsbD_or,
    BitVec.getLsbD_shiftLeft, BitVec.getLsbD_setWidth]
  interval_cases i <;> simp

end

@[simp] theorem boolOf_ofBool (b : Bool) : boolOf (ofBool b) = b := by cases b <;> decide

@[simp] theorem boolOf_selector_or (f : Flag) (b : Bool) : boolOf (flagSelector f ||| ofBool b) = b := by
  cases f <;> cases b <;> decide

@[simp] theorem flagOf_selector_or (f : Flag) (b : Bool) : flagOf (flagSelector f ||| ofBool b) = f := by
  cases f <;> cases b <;> decide

@[simp] theorem flagOf_selector (f : Flag) : flagOf (flagSelector f) = f := by
  cases f <;> decide

@[simp] theorem extract_setWidth (t : BitVec 3) : (t.setWidth 8).extractLsb' 0 3 = t := by
  revert t; decide

/-! ## The header byte -/

@[simp] theorem headerType_packHeader (t : BitVec 3) (rr frag : Bool) (u : BitVec 3) :
    headerType (packHeader t rr frag u) = t := by
  revert t rr frag u; decide

@[simp] theorem headerRR_packHeader (t : BitVec 3) (rr frag : Bool) (u : BitVec 3) :
    headerRR (packHeader t rr frag u) = rr := by
  revert t rr frag u; decide

@[simp] theorem headerFrag_packHeader (t : BitVec 3) (rr frag : Bool) (u : BitVec 3) :
    headerFrag (packHeader t rr frag u) = frag := by
  revert t rr frag u; decide

@[simp] theorem headerUnused_packHeader (t : BitVec 3) (rr frag : Bool) (u : BitVec 3) :
    headerUnused (packHeader t rr frag u) = u := by
  revert t rr frag u; decide

end Sys2Proof
end

