-- ==== Sys2Proof/Laws/Memory.lean ====
section
/-! SUPPORT. Laws of the frame address space: read after write, runs of bytes, the canonical form, and the terminator scan. -/

namespace Sys2Proof.Machine.Memory

/-! ## One byte -/

@[simp] theorem lookup_put (m : Memory) (a b : Nat) (v : Byte) :
    (m.put a v).lookup b = if b = a then some v else m.lookup b := by
  induction m with
  | nil => simp [put, lookup]
  | cons c m ih =>
    obtain ⟨x, w⟩ := c
    simp only [put]
    split
    · simp [lookup]
    · split
      · subst_vars
        simp only [lookup]
        split <;> simp_all
      · simp only [lookup, ih]
        split <;> simp_all
        intro h; omega

@[simp] theorem lookup_drop (m : Memory) (a b : Nat) :
    (m.drop a).lookup b = if b = a then none else m.lookup b := by
  induction m with
  | nil => simp [drop, lookup]
  | cons c m ih =>
    obtain ⟨x, w⟩ := c
    simp only [drop] at ih ⊢
    by_cases h : x = a
    · subst h
      simp only [List.filter_cons, ne_eq, not_true_eq_false, decide_false, Bool.false_eq_true,
        if_false, ih, lookup]
      split <;> simp_all
    · simp only [List.filter_cons, ne_eq, h, not_false_eq_true, decide_true, if_true, lookup, ih]
      split <;> simp_all

/-- Read after write: the written byte reads as the value, every other byte as before. -/
@[simp] theorem read_write (m : Memory) (a b : Nat) (v : Byte) :
    (m.write a v).read b = if b = a then some v else m.read b := by
  unfold write read
  by_cases h : unlisted a = some v
  · by_cases hb : b = a
    · subst hb; simp [h]
    · simp [h, hb]
  · by_cases hb : b = a <;> simp [h, hb]

/-- The header always reads as a byte (10_state.md R21). -/
theorem read_zero (m : Memory) : ∃ v, m.read 0 = some v := by
  unfold read
  split
  · exact ⟨_, rfl⟩
  · exact ⟨_, rfl⟩

/-! ## Runs of bytes -/

/-- A run of writes: inside it the written bytes, outside it everything as before. -/
@[simp] theorem read_writeBytes (m : Memory) (a b : Nat) (vs : List Byte) :
    (m.writeBytes a vs).read b =
      if a ≤ b ∧ b < a + vs.length then vs[b - a]? else m.read b := by
  induction vs generalizing m a with
  | nil =>
    have : ¬ (a ≤ b ∧ b < a) := by omega
    simp [writeBytes, this]
  | cons v vs ih =>
    simp only [writeBytes, ih, read_write, List.length_cons]
    by_cases h1 : a + 1 ≤ b ∧ b < a + 1 + vs.length
    · have h2 : a ≤ b ∧ b < a + (vs.length + 1) := by omega
      have h3 : b - a = (b - (a + 1)) + 1 := by omega
      simp [h1, h2, h3]
    · by_cases h4 : b = a
      · subst h4; simp
      · have h5 : ¬ (a ≤ b ∧ b < a + (vs.length + 1)) := by omega
        rw [if_neg h1, if_neg h5, if_neg h4]

@[simp] theorem readBytes_length (m : Memory) (n a d : Nat) :
    (m.readBytes n a d).1.length = n := by
  induction n generalizing a d with
  | zero => rfl
  | succ n ih => simp [readBytes, ih]

/-- Reading depends on the bytes read alone. -/
theorem readBytes_congr {m m' : Memory} {n a : Nat} (d : Nat)
    (h : ∀ i, i < n → m.read (a + i) = m'.read (a + i)) : m.readBytes n a d = m'.readBytes n a d := by
  induction n generalizing a d with
  | zero => rfl
  | succ n ih =>
    have h0 : m.readByte a d = m'.readByte a d := by
      have := h 0 (by omega)
      simp only [Nat.add_zero] at this
      simp [readByte, this]
    have h1 : ∀ i, i < n → m.read (a + 1 + i) = m'.read (a + 1 + i) := fun i hi => by
      have := h (i + 1) (by omega)
      rwa [show a + (i + 1) = a + 1 + i by omega] at this
    simp [readBytes, h0, ih _ h1]

/-- A run of written bytes reads as those bytes and draws nothing. -/
theorem readBytes_eq {m : Memory} {a : Nat} (d : Nat) {vs : List Byte}
    (h : ∀ i, i < vs.length → m.read (a + i) = vs[i]?) : m.readBytes vs.length a d = (vs, d) := by
  induction vs generalizing a d with
  | nil => rfl
  | cons v vs ih =>
    have h0 : m.read a = some v := by simpa using h 0 (by simp)
    have h1 : ∀ i, i < vs.length → m.read (a + 1 + i) = vs[i]? := fun i hi => by
      have := h (i + 1) (by simpa using hi)
      rwa [show a + (i + 1) = a + 1 + i by omega, List.getElem?_cons_succ] at this
    simp [readBytes, readByte, h0, ih d h1]

/-- Each byte of a run that is written reads as held. -/
theorem readBytes_getElem? {m : Memory} {n a d i : Nat} {v : Byte} (hi : i < n)
    (h : m.read (a + i) = some v) : (m.readBytes n a d).1[i]? = some v := by
  induction n generalizing a d i with
  | zero => omega
  | succ n ih =>
    cases i with
    | zero => simp_all [readBytes, readByte]
    | succ i =>
      simp only [readBytes, List.getElem?_cons_succ]
      exact ih (by omega) (by rwa [show a + 1 + i = a + (i + 1) by omega])

/-! ## The canonical form -/

theorem mem_put {m : Memory} {a : Nat} {v : Byte} {c : Host.Cell} (h : c ∈ m.put a v) :
    c = (a, v) ∨ c ∈ m := by
  induction m with
  | nil => simpa [put] using h
  | cons x m ih =>
    obtain ⟨b, w⟩ := x
    simp only [put] at h
    split at h
    · simpa using h
    · split at h
      · rcases List.mem_cons.1 h with h | h <;> simp [h]
      · rcases List.mem_cons.1 h with h | h
        · simp [h]
        · rcases ih h with h | h <;> simp [h]

theorem pairwise_put {m : Memory} {a : Nat} {v : Byte} (h : m.Pairwise (fun x y => x.1 < y.1)) :
    (m.put a v).Pairwise (fun x y => x.1 < y.1) := by
  induction m with
  | nil => simp [put]
  | cons x m ih =>
    obtain ⟨b, w⟩ := x
    rw [List.pairwise_cons] at h
    simp only [put]
    split
    · rename_i hab
      refine List.pairwise_cons.2 ⟨fun c hc => ?_, List.pairwise_cons.2 h⟩
      rcases List.mem_cons.1 hc with rfl | hc
      · exact hab
      · exact Nat.lt_trans hab (h.1 c hc)
    · split
      · subst_vars
        exact List.pairwise_cons.2 ⟨h.1, h.2⟩
      · refine List.pairwise_cons.2 ⟨fun c hc => ?_, ih h.2⟩
        rcases mem_put hc with rfl | hc
        · show b < a
          omega
        · exact h.1 c hc

/-- A write keeps the canonical form. -/
theorem write_wf {m : Memory} (h : m.wf) (a : Nat) (v : Byte) : (m.write a v).wf := by
  unfold write
  split
  · exact ⟨h.1.filter _, fun c hc => h.2 c (List.mem_filter.1 hc).1⟩
  · rename_i hv
    refine ⟨pairwise_put h.1, fun c hc => ?_⟩
    rcases mem_put hc with rfl | hc
    · exact hv
    · exact h.2 c hc

/-- A run of writes keeps the canonical form. -/
theorem writeBytes_wf {m : Memory} (h : m.wf) (a : Nat) (vs : List Byte) :
    (m.writeBytes a vs).wf := by
  induction vs generalizing m a with
  | nil => exact h
  | cons v vs ih => exact ih (write_wf h a v) (a + 1)

/-- A write inside the frame keeps the memory inside it. -/
theorem write_within {m : Memory} {n a : Nat} (h : m.within n) (ha : a < n) (v : Byte) :
    (m.write a v).within n := by
  intro c hc
  unfold write at hc
  split at hc
  · exact h c (List.mem_filter.1 hc).1
  · rcases mem_put hc with rfl | hc
    · exact ha
    · exact h c hc

/-- A run of writes inside the frame keeps the memory inside it. -/
theorem writeBytes_within {m : Memory} {n a : Nat} {vs : List Byte} (h : m.within n)
    (ha : a + vs.length ≤ n) : (m.writeBytes a vs).within n := by
  induction vs generalizing m a with
  | nil => exact h
  | cons v vs ih =>
    simp only [List.length_cons] at ha
    exact ih (write_within h (by omega) v) (by omega)

/-! ## Equal memories are equal data -/

theorem lookup_eq_none {m : Memory} {a : Nat} (h : ∀ c ∈ m, a < c.1) : m.lookup a = none := by
  induction m with
  | nil => rfl
  | cons c m ih =>
    have := h c (by simp)
    simp only [lookup]
    rw [if_neg (by omega)]
    exact ih fun c hc => h c (by simp [hc])

theorem mem_of_lookup {m : Memory} {a : Nat} {v : Byte} (h : m.lookup a = some v) : (a, v) ∈ m := by
  induction m with
  | nil => simp [lookup] at h
  | cons c m ih =>
    obtain ⟨b, w⟩ := c
    simp only [lookup] at h
    split at h
    · subst_vars; cases h; simp
    · simp [ih h]

/-- In the canonical form the listed cells follow from what is read. -/
theorem lookup_eq_of_read_eq {m m' : Memory} (h : m.wf) (h' : m'.wf) {a : Nat}
    (e : m.read a = m'.read a) : m.lookup a = m'.lookup a := by
  unfold read at e
  cases h1 : m.lookup a <;> cases h2 : m'.lookup a <;> simp only [h1, h2] at e ⊢
  · exact absurd e (h'.2 _ (mem_of_lookup h2))
  · exact absurd e.symm (h.2 _ (mem_of_lookup h1))
  · exact e

theorem eq_of_lookup_eq {m m' : Memory} (h : m.Pairwise (fun x y => x.1 < y.1))
    (h' : m'.Pairwise (fun x y => x.1 < y.1)) (e : ∀ a, m.lookup a = m'.lookup a) : m = m' := by
  induction m generalizing m' with
  | nil =>
    cases m' with
    | nil => rfl
    | cons c m' => have := e c.1; simp [lookup] at this
  | cons c m ih =>
    cases m' with
    | nil => have := e c.1; simp [lookup] at this
    | cons c' m' =>
      obtain ⟨b, w⟩ := c
      obtain ⟨b', w'⟩ := c'
      rw [List.pairwise_cons] at h h'
      have low : ∀ {x y : Nat} {z : Byte} {l : Memory}, x < y → (∀ c ∈ l, y < c.1) →
          lookup ((y, z) :: l) x = none := fun hl hr => lookup_eq_none fun c hc => by
        rcases List.mem_cons.1 hc with rfl | hc
        · exact hl
        · exact Nat.lt_trans hl (hr c hc)
      have hb : b = b' := by
        rcases Nat.lt_trichotomy b b' with hl | hl | hl
        · have := e b
          rw [low hl h'.1] at this
          simp [lookup] at this
        · exact hl
        · have := e b'
          rw [low hl h.1] at this
          simp [lookup] at this
      subst hb
      have hw : w = w' := by simpa [lookup] using e b
      subst hw
      congr 1
      refine ih h.2 h'.2 fun a => ?_
      by_cases ha : a = b
      · subst ha
        rw [lookup_eq_none h.1, lookup_eq_none h'.1]
      · have := e a
        simpa [lookup, ha] using this

/-- Canonical memories that read alike are equal. -/
theorem eq_of_read_eq {m m' : Memory} (h : m.wf) (h' : m'.wf) (e : ∀ a, m.read a = m'.read a) :
    m = m' :=
  eq_of_lookup_eq h.1 h'.1 fun a => lookup_eq_of_read_eq h h' (e a)

/-! ## The terminator scan (40_codec_common.md R93) -/

/-- Where the scan stops lies in the scanned range. -/
theorem scanNul_bounds {m : Memory} {fuel j d r : Nat} (h : (m.scanNul fuel j d).1 = some r) :
    j ≤ r ∧ r < j + fuel := by
  induction fuel generalizing j d with
  | zero => simp [scanNul] at h
  | succ n ih =>
    simp only [scanNul] at h
    split at h
    · simp only [Option.some.injEq] at h; omega
    · have := ih h; omega

/-- The scan depends on the scanned bytes alone. -/
theorem scanNul_congr {m m' : Memory} {fuel j : Nat} (d : Nat)
    (h : ∀ i, j ≤ i → i < j + fuel → m.read (1 + i) = m'.read (1 + i)) :
    m.scanNul fuel j d = m'.scanNul fuel j d := by
  induction fuel generalizing j d with
  | zero => rfl
  | succ n ih =>
    have h0 : m.readByte (1 + j) d = m'.readByte (1 + j) d := by
      simp [readByte, h j (by omega) (by omega)]
    simp only [scanNul, h0]
    split
    · rfl
    · exact ih _ fun i hi hi' => h i (by omega) (by omega)

/-- The scan over written bytes: text without a NUL, then a NUL inside the range. -/
theorem scanNul_text {m : Memory} {fuel j : Nat} (d : Nat) {text : List Byte}
    (ht : ∀ i, i < text.length → m.read (1 + j + i) = text[i]?) (hn : nul ∉ text)
    (hz : m.read (1 + j + text.length) = some nul) (hf : text.length < fuel) :
    m.scanNul fuel j d = (some (j + text.length), d) := by
  induction text generalizing j fuel d with
  | nil =>
    cases fuel with
    | zero => simp at hf
    | succ n => simp_all [scanNul, readByte]
  | cons v text ih =>
    cases fuel with
    | zero => simp at hf
    | succ n =>
      have h0 : m.read (1 + j) = some v := by simpa using ht 0 (by simp)
      have hv : v ≠ nul := fun h => hn (by simp [h])
      have h1 : ∀ i, i < text.length → m.read (1 + (j + 1) + i) = text[i]? := fun i hi => by
        have := ht (i + 1) (by simpa using hi)
        rwa [show 1 + j + (i + 1) = 1 + (j + 1) + i by omega, List.getElem?_cons_succ] at this
      have h2 : m.read (1 + (j + 1) + text.length) = some nul := by
        rwa [List.length_cons, show 1 + j + (text.length + 1) = 1 + (j + 1) + text.length by omega]
          at hz
      have := ih (fuel := n) d h1 (fun h => hn (by simp [h])) h2 (by simpa using hf)
      simp only [scanNul, readByte, h0]
      rw [if_neg hv, this]
      simp; omega

/-- The scan over written bytes without a NUL finds none. -/
theorem scanNul_none {m : Memory} {fuel j : Nat} (d : Nat)
    (h : ∀ i, j ≤ i → i < j + fuel → ∃ v, m.read (1 + i) = some v ∧ v ≠ nul) :
    m.scanNul fuel j d = (none, d) := by
  induction fuel generalizing j d with
  | zero => rfl
  | succ n ih =>
    obtain ⟨v, hv, hn⟩ := h j (by omega) (by omega)
    simp only [scanNul, readByte, hv]
    rw [if_neg hn]
    exact ih d fun i hi hi' => h i (by omega) (by omega)

end Sys2Proof.Machine.Memory
end

