-- ==== Sys2Proof/Laws/State.lean ====
section
/-! SUPPORT. One lemma per field per state update, so that no proof unfolds a record update; and the header and body views under each update. -/

namespace Sys2Proof.Machine

@[simp] theorem State.withMem_cfg (s : State) (m : Memory) : (s.withMem m).cfg = s.cfg := rfl
@[simp] theorem State.withMem_mem (s : State) (m : Memory) : (s.withMem m).mem = m := rfl
@[simp] theorem State.withMem_ulen (s : State) (m : Memory) : (s.withMem m).ulen = s.ulen := rfl
@[simp] theorem State.withMem_resp (s : State) (m : Memory) : (s.withMem m).resp = s.resp := rfl
@[simp] theorem State.withMem_port (s : State) (m : Memory) : (s.withMem m).port = s.port := rfl
@[simp] theorem State.withMem_radioIn (s : State) (m : Memory) : (s.withMem m).radioIn = s.radioIn := rfl
@[simp] theorem State.withMem_radioOut (s : State) (m : Memory) : (s.withMem m).radioOut = s.radioOut := rfl
@[simp] theorem State.withMem_draws (s : State) (m : Memory) : (s.withMem m).draws = s.draws := rfl

@[simp] theorem State.withUlen_cfg (s : State) (n : Nat) : (s.withUlen n).cfg = s.cfg := rfl
@[simp] theorem State.withUlen_mem (s : State) (n : Nat) : (s.withUlen n).mem = s.mem := rfl
@[simp] theorem State.withUlen_ulen (s : State) (n : Nat) : (s.withUlen n).ulen = n := rfl
@[simp] theorem State.withUlen_resp (s : State) (n : Nat) : (s.withUlen n).resp = s.resp := rfl
@[simp] theorem State.withUlen_port (s : State) (n : Nat) : (s.withUlen n).port = s.port := rfl
@[simp] theorem State.withUlen_radioIn (s : State) (n : Nat) : (s.withUlen n).radioIn = s.radioIn := rfl
@[simp] theorem State.withUlen_radioOut (s : State) (n : Nat) : (s.withUlen n).radioOut = s.radioOut := rfl
@[simp] theorem State.withUlen_draws (s : State) (n : Nat) : (s.withUlen n).draws = s.draws := rfl

@[simp] theorem State.withResp_cfg (s : State) (r : Resp) : (s.withResp r).cfg = s.cfg := rfl
@[simp] theorem State.withResp_mem (s : State) (r : Resp) : (s.withResp r).mem = s.mem := rfl
@[simp] theorem State.withResp_ulen (s : State) (r : Resp) : (s.withResp r).ulen = s.ulen := rfl
@[simp] theorem State.withResp_resp (s : State) (r : Resp) : (s.withResp r).resp = r := rfl
@[simp] theorem State.withResp_port (s : State) (r : Resp) : (s.withResp r).port = s.port := rfl
@[simp] theorem State.withResp_radioIn (s : State) (r : Resp) : (s.withResp r).radioIn = s.radioIn := rfl
@[simp] theorem State.withResp_radioOut (s : State) (r : Resp) : (s.withResp r).radioOut = s.radioOut := rfl
@[simp] theorem State.withResp_draws (s : State) (r : Resp) : (s.withResp r).draws = s.draws := rfl

@[simp] theorem State.withDraws_cfg (s : State) (d : Nat) : (s.withDraws d).cfg = s.cfg := rfl
@[simp] theorem State.withDraws_mem (s : State) (d : Nat) : (s.withDraws d).mem = s.mem := rfl
@[simp] theorem State.withDraws_ulen (s : State) (d : Nat) : (s.withDraws d).ulen = s.ulen := rfl
@[simp] theorem State.withDraws_resp (s : State) (d : Nat) : (s.withDraws d).resp = s.resp := rfl
@[simp] theorem State.withDraws_port (s : State) (d : Nat) : (s.withDraws d).port = s.port := rfl
@[simp] theorem State.withDraws_radioIn (s : State) (d : Nat) : (s.withDraws d).radioIn = s.radioIn := rfl
@[simp] theorem State.withDraws_radioOut (s : State) (d : Nat) : (s.withDraws d).radioOut = s.radioOut := rfl
@[simp] theorem State.withDraws_draws (s : State) (d : Nat) : (s.withDraws d).draws = d := rfl

@[simp] theorem State.withPort_cfg (s : State) (p : List HostEvent) : (s.withPort p).cfg = s.cfg := rfl
@[simp] theorem State.withPort_mem (s : State) (p : List HostEvent) : (s.withPort p).mem = s.mem := rfl
@[simp] theorem State.withPort_ulen (s : State) (p : List HostEvent) : (s.withPort p).ulen = s.ulen := rfl
@[simp] theorem State.withPort_resp (s : State) (p : List HostEvent) : (s.withPort p).resp = s.resp := rfl
@[simp] theorem State.withPort_port (s : State) (p : List HostEvent) : (s.withPort p).port = p := rfl
@[simp] theorem State.withPort_radioIn (s : State) (p : List HostEvent) : (s.withPort p).radioIn = s.radioIn := rfl
@[simp] theorem State.withPort_radioOut (s : State) (p : List HostEvent) : (s.withPort p).radioOut = s.radioOut := rfl
@[simp] theorem State.withPort_draws (s : State) (p : List HostEvent) : (s.withPort p).draws = s.draws := rfl

@[simp] theorem State.called_cfg (s : State) (c : RadioCall) : (s.called c).cfg = s.cfg := rfl
@[simp] theorem State.called_mem (s : State) (c : RadioCall) : (s.called c).mem = s.mem := rfl
@[simp] theorem State.called_ulen (s : State) (c : RadioCall) : (s.called c).ulen = s.ulen := rfl
@[simp] theorem State.called_resp (s : State) (c : RadioCall) : (s.called c).resp = s.resp := rfl
@[simp] theorem State.called_port (s : State) (c : RadioCall) : (s.called c).port = s.port := rfl
@[simp] theorem State.called_radioIn (s : State) (c : RadioCall) : (s.called c).radioIn = s.radioIn.tail := rfl
@[simp] theorem State.called_radioOut (s : State) (c : RadioCall) : (s.called c).radioOut = s.radioOut ++ [c] := rfl
@[simp] theorem State.called_draws (s : State) (c : RadioCall) : (s.called c).draws = if s.radioIn.isEmpty then s.draws + 1 else s.draws := rfl
@[simp] theorem State.called_hdr (s : State) (c : RadioCall) : (s.called c).hdr = s.hdr := rfl
@[simp] theorem State.called_type (s : State) (c : RadioCall) : (s.called c).type = s.type := rfl
@[simp] theorem State.called_body (s : State) (c : RadioCall) (i : Nat) : (s.called c).body i = s.body i := rfl

@[simp] theorem State.setHdr_cfg (s : State) (h : Byte) : (s.setHdr h).cfg = s.cfg := rfl
@[simp] theorem State.setHdr_mem (s : State) (h : Byte) : (s.setHdr h).mem = s.mem.write 0 h := rfl
@[simp] theorem State.setHdr_ulen (s : State) (h : Byte) : (s.setHdr h).ulen = s.ulen := rfl
@[simp] theorem State.setHdr_resp (s : State) (h : Byte) : (s.setHdr h).resp = s.resp := rfl
@[simp] theorem State.setHdr_port (s : State) (h : Byte) : (s.setHdr h).port = s.port := rfl
@[simp] theorem State.setHdr_radioIn (s : State) (h : Byte) : (s.setHdr h).radioIn = s.radioIn := rfl
@[simp] theorem State.setHdr_radioOut (s : State) (h : Byte) : (s.setHdr h).radioOut = s.radioOut := rfl
@[simp] theorem State.setHdr_draws (s : State) (h : Byte) : (s.setHdr h).draws = s.draws := rfl

@[simp] theorem State.setBody_cfg (s : State) (i : Nat) (v : Byte) : (s.setBody i v).cfg = s.cfg := rfl
@[simp] theorem State.setBody_mem (s : State) (i : Nat) (v : Byte) : (s.setBody i v).mem = s.mem.write (1 + i) v := rfl
@[simp] theorem State.setBody_ulen (s : State) (i : Nat) (v : Byte) : (s.setBody i v).ulen = s.ulen := rfl
@[simp] theorem State.setBody_resp (s : State) (i : Nat) (v : Byte) : (s.setBody i v).resp = s.resp := rfl
@[simp] theorem State.setBody_port (s : State) (i : Nat) (v : Byte) : (s.setBody i v).port = s.port := rfl
@[simp] theorem State.setBody_radioIn (s : State) (i : Nat) (v : Byte) : (s.setBody i v).radioIn = s.radioIn := rfl
@[simp] theorem State.setBody_radioOut (s : State) (i : Nat) (v : Byte) : (s.setBody i v).radioOut = s.radioOut := rfl
@[simp] theorem State.setBody_draws (s : State) (i : Nat) (v : Byte) : (s.setBody i v).draws = s.draws := rfl

@[simp] theorem State.memWrite_cfg (s : State) (a : Nat) (v : List Byte) : (s.memWrite a v).cfg = s.cfg := rfl
@[simp] theorem State.memWrite_mem (s : State) (a : Nat) (v : List Byte) : (s.memWrite a v).mem = s.mem.writeBytes a v := rfl
@[simp] theorem State.memWrite_ulen (s : State) (a : Nat) (v : List Byte) : (s.memWrite a v).ulen = s.ulen := rfl
@[simp] theorem State.memWrite_resp (s : State) (a : Nat) (v : List Byte) : (s.memWrite a v).resp = s.resp := rfl
@[simp] theorem State.memWrite_port (s : State) (a : Nat) (v : List Byte) : (s.memWrite a v).port = s.port := rfl
@[simp] theorem State.memWrite_radioIn (s : State) (a : Nat) (v : List Byte) : (s.memWrite a v).radioIn = s.radioIn := rfl
@[simp] theorem State.memWrite_radioOut (s : State) (a : Nat) (v : List Byte) : (s.memWrite a v).radioOut = s.radioOut := rfl
@[simp] theorem State.memWrite_draws (s : State) (a : Nat) (v : List Byte) : (s.memWrite a v).draws = s.draws := rfl

@[simp] theorem State.withUlen_hdr (s : State) (n : Nat) : (s.withUlen n).hdr = s.hdr := rfl
@[simp] theorem State.withUlen_type (s : State) (n : Nat) : (s.withUlen n).type = s.type := rfl
@[simp] theorem State.withUlen_body (s : State) (n : Nat) (i : Nat) : (s.withUlen n).body i = s.body i := rfl
@[simp] theorem State.withResp_hdr (s : State) (r : Resp) : (s.withResp r).hdr = s.hdr := rfl
@[simp] theorem State.withResp_type (s : State) (r : Resp) : (s.withResp r).type = s.type := rfl
@[simp] theorem State.withResp_body (s : State) (r : Resp) (i : Nat) : (s.withResp r).body i = s.body i := rfl
@[simp] theorem State.withDraws_hdr (s : State) (d : Nat) : (s.withDraws d).hdr = s.hdr := rfl
@[simp] theorem State.withDraws_type (s : State) (d : Nat) : (s.withDraws d).type = s.type := rfl
@[simp] theorem State.withDraws_body (s : State) (d : Nat) (i : Nat) : (s.withDraws d).body i = s.body i := rfl
@[simp] theorem State.withPort_hdr (s : State) (p : List HostEvent) : (s.withPort p).hdr = s.hdr := rfl
@[simp] theorem State.withPort_type (s : State) (p : List HostEvent) : (s.withPort p).type = s.type := rfl
@[simp] theorem State.withPort_body (s : State) (p : List HostEvent) (i : Nat) : (s.withPort p).body i = s.body i := rfl

@[simp] theorem resetBlock_cfg (s : State) : (resetBlock s).cfg = s.cfg := rfl
@[simp] theorem resetBlock_mem (s : State) : (resetBlock s).mem = [] := rfl
@[simp] theorem resetBlock_ulen (s : State) : (resetBlock s).ulen = 0 := rfl
@[simp] theorem resetBlock_resp (s : State) : (resetBlock s).resp = Resp.reset := rfl
@[simp] theorem resetBlock_port (s : State) : (resetBlock s).port = s.port := rfl
@[simp] theorem resetBlock_radioIn (s : State) : (resetBlock s).radioIn = s.radioIn := rfl
@[simp] theorem resetBlock_radioOut (s : State) : (resetBlock s).radioOut = s.radioOut := rfl
@[simp] theorem resetBlock_draws (s : State) : (resetBlock s).draws = s.draws := rfl

end Sys2Proof.Machine
end

