-- ==== Sys2Proof/Laws/Ops.lean ====
section
/-! SUPPORT. What each shared operation does, said once: capacities, the header and body views after a write, and one lemma per operation for every way it can answer a next state. -/

namespace Sys2Proof

/-! ## Capacities (00_scope.md R6, R7) -/

theorem Config.three_le_frameMax (c : Config) : 3 ≤ c.frameMax := by
  unfold Config.frameMax; omega

theorem Config.frameMax_le (c : Config) : c.frameMax ≤ 65535 := by
  have := c.extra.isLt; unfold Config.frameMax; omega

theorem Config.bodyCap_add_one (c : Config) : c.bodyCap + 1 = c.frameMax := by
  have := c.three_le_frameMax; unfold Config.bodyCap; omega

theorem Config.cmdRegion_add_one (c : Config) : 1 + c.cmdRegion = c.bodyCap := by
  have := c.three_le_frameMax; have := c.bodyCap_add_one; unfold Config.cmdRegion; omega

theorem Config.noticeRegion_eq (c : Config) : 0 + c.noticeRegion = c.bodyCap := by
  simp [Config.noticeRegion]

namespace Machine

/-- A stored string leaves room for its NUL (40_codec_common.md R92). -/
theorem storedLen_lt {off region : Nat} {c : Config} (h : off + region = c.bodyCap) (ho : off ≤ 1)
    (str : List Byte) : off + storedLen region str < c.bodyCap := by
  have := c.three_le_frameMax; have := c.bodyCap_add_one
  unfold storedLen; omega

theorem storedLen_le (region : Nat) (str : List Byte) : storedLen region str ≤ (cstr str).length :=
  Nat.min_le_left _ _

theorem dataLen_le (c : Config) (str : List Byte) : dataLen c str ≤ str.length := Nat.min_le_left _ _

theorem dataLen_le_bodyCap (c : Config) (str : List Byte) : dataLen c str ≤ c.bodyCap :=
  Nat.min_le_right _ _

/-- `cstr(s)` contains no NUL (00_scope.md R12). -/
theorem nul_notMem_cstr (str : List Byte) : nul ∉ cstr str := by
  intro h
  simpa using List.mem_takeWhile_imp h

theorem lengthValue_toNat {n : Nat} (h : n < 65536) : (lengthValue n).toNat = n := by
  simp [lengthValue, Nat.mod_eq_of_lt h]

/-! ## The header and the body after a write -/

/-- The header as the memory holds it. -/
theorem State.read_zero (s : State) : s.mem.read 0 = some s.hdr := by
  obtain ⟨v, hv⟩ := Memory.read_zero s.mem
  simp [State.hdr, hv]

@[simp] theorem State.setHdr_hdr (s : State) (h : Byte) : (s.setHdr h).hdr = h := by
  simp [State.hdr]

@[simp] theorem State.setHdr_type (s : State) (h : Byte) : (s.setHdr h).type = headerType h := by
  simp [State.type]

@[simp] theorem State.setHdr_body (s : State) (h : Byte) (i : Nat) :
    (s.setHdr h).body i = s.body i := by
  simp [State.body]

@[simp] theorem State.setBody_hdr (s : State) (i : Nat) (v : Byte) : (s.setBody i v).hdr = s.hdr := by
  have : ¬ 0 = 1 + i := by omega
  simp [State.hdr, this]

@[simp] theorem State.setBody_type (s : State) (i : Nat) (v : Byte) :
    (s.setBody i v).type = s.type := by
  simp [State.type]

@[simp] theorem State.setBody_body (s : State) (i j : Nat) (v : Byte) :
    (s.setBody i v).body j = if j = i then some v else s.body j := by
  simp [State.body]

@[simp] theorem State.memWrite_hdr (s : State) (off : Nat) (v : List Byte) :
    (s.memWrite (1 + off) v).hdr = s.hdr := by
  have : ¬ (1 + off ≤ 0 ∧ 0 < 1 + off + v.length) := by omega
  simp only [State.hdr, State.memWrite_mem, Memory.read_writeBytes]
  rw [if_neg this]

@[simp] theorem State.memWrite_body (s : State) (off j : Nat) (v : List Byte) :
    (s.memWrite (1 + off) v).body j =
      if off ≤ j ∧ j < off + v.length then v[j - off]? else s.body j := by
  simp only [State.body, State.memWrite_mem, Memory.read_writeBytes]
  have h1 : (1 + off ≤ 1 + j ∧ 1 + j < 1 + off + v.length) ↔ (off ≤ j ∧ j < off + v.length) := by
    omega
  have h2 : 1 + j - (1 + off) = j - off := by omega
  simp only [h1, h2]

@[simp] theorem headerType_setWidth (t : BitVec 3) : headerType (t.setWidth 8) = t := by
  revert t; decide

/-! ## VariantInit, the store steps (40_codec_common.md R91, R92; 42_data.md R121) -/

section
variable (t : BitVec 3) (s : State)

@[simp] theorem variantInit_hdr : (variantInit t s).hdr = t.setWidth 8 := by simp [variantInit]
@[simp] theorem variantInit_type : (variantInit t s).type = t := by simp [variantInit]
@[simp] theorem variantInit_body (i : Nat) : (variantInit t s).body i = s.body i := by
  simp [variantInit]
@[simp] theorem variantInit_ulen : (variantInit t s).ulen = 0 := rfl
@[simp] theorem variantInit_mem : (variantInit t s).mem = s.mem.write 0 (t.setWidth 8) := rfl
@[simp] theorem variantInit_cfg : (variantInit t s).cfg = s.cfg := rfl
@[simp] theorem variantInit_resp : (variantInit t s).resp = s.resp := rfl
@[simp] theorem variantInit_port : (variantInit t s).port = s.port := rfl
@[simp] theorem variantInit_radioIn : (variantInit t s).radioIn = s.radioIn := rfl
@[simp] theorem variantInit_radioOut : (variantInit t s).radioOut = s.radioOut := rfl
@[simp] theorem variantInit_draws : (variantInit t s).draws = s.draws := rfl

end

section
variable (off region : Nat) (str : List Byte) (s : State)

@[simp] theorem strStore_hdr : (strStore off region str s).hdr = s.hdr := by simp [strStore]
@[simp] theorem strStore_type : (strStore off region str s).type = s.type := by simp [State.type]
@[simp] theorem strStore_ulen :
    (strStore off region str s).ulen = off + storedLen region str + 1 := rfl
@[simp] theorem strStore_cfg : (strStore off region str s).cfg = s.cfg := rfl
@[simp] theorem strStore_resp : (strStore off region str s).resp = s.resp := rfl
@[simp] theorem strStore_port : (strStore off region str s).port = s.port := rfl
@[simp] theorem strStore_radioIn : (strStore off region str s).radioIn = s.radioIn := rfl
@[simp] theorem strStore_radioOut : (strStore off region str s).radioOut = s.radioOut := rfl
@[simp] theorem strStore_draws : (strStore off region str s).draws = s.draws := rfl

theorem strStore_length : ((cstr str).take (storedLen region str)).length = storedLen region str := by
  simp [storedLen]

/-- The body after `StrStore`: the text from `off`, then a NUL, and the rest as it was. -/
theorem strStore_body (j : Nat) :
    (strStore off region str s).body j =
      if j = off + storedLen region str then some nul
      else if off ≤ j ∧ j < off + storedLen region str then (cstr str)[j - off]?
      else s.body j := by
  simp only [strStore, State.withUlen_body, State.setBody_body, State.memWrite_body,
    strStore_length]
  split
  · rfl
  · split
    · rename_i h
      rw [List.getElem?_take, if_pos (by omega)]
    · rfl

end

section
variable (str : List Byte) (s : State)

@[simp] theorem dataStore_hdr : (dataStore str s).hdr = s.hdr := by
  simpa [dataStore] using State.memWrite_hdr s 0 (str.take (dataLen s.cfg str))
@[simp] theorem dataStore_type : (dataStore str s).type = s.type := by simp [State.type]
@[simp] theorem dataStore_ulen : (dataStore str s).ulen = dataLen s.cfg str := rfl
@[simp] theorem dataStore_cfg : (dataStore str s).cfg = s.cfg := rfl
@[simp] theorem dataStore_resp : (dataStore str s).resp = s.resp := rfl
@[simp] theorem dataStore_port : (dataStore str s).port = s.port := rfl
@[simp] theorem dataStore_radioIn : (dataStore str s).radioIn = s.radioIn := rfl
@[simp] theorem dataStore_radioOut : (dataStore str s).radioOut = s.radioOut := rfl
@[simp] theorem dataStore_draws : (dataStore str s).draws = s.draws := rfl

/-- The body after the data store: the first `dataLen` bytes, and the rest as it was. -/
theorem dataStore_body (j : Nat) :
    (dataStore str s).body j = if j < dataLen s.cfg str then str[j]? else s.body j := by
  have h := State.memWrite_body s 0 j (str.take (dataLen s.cfg str))
  have hl : (str.take (dataLen s.cfg str)).length = dataLen s.cfg str := by simp [dataLen]
  simp only [Nat.add_zero, Nat.zero_le, true_and, hl, Nat.zero_add, Nat.sub_zero] at h
  simp only [dataStore, State.withUlen_body, h]
  split
  · rw [List.getElem?_take, if_pos ‹_›]
  · rfl

end

/-! ## How each shared operation answers a next state -/

theorem complete_next {r : Resp} {s t : State} (h : complete r s = .next t) : t = s.withResp r := by
  cases h; rfl

theorem raise_next {e : Status} {info : Int} {s t : State} (h : raise e info s = .next t) :
    t = s.withResp (Resp.raised e info) := by
  cases h; rfl

theorem memRead_of_le {s : State} {addr n : Nat} {k : List Byte → State → Result}
    (h : addr + n ≤ s.cfg.frameMax) :
    memRead s addr n k =
      k (s.mem.readBytes n addr s.draws).1 (s.withDraws (s.mem.readBytes n addr s.draws).2) :=
  if_pos h

theorem memRead_next {s t : State} {addr n : Nat} {k : List Byte → State → Result}
    (h : memRead s addr n k = .next t) :
    addr + n ≤ s.cfg.frameMax ∧
      k (s.mem.readBytes n addr s.draws).1 (s.withDraws (s.mem.readBytes n addr s.draws).2) =
        .next t := by
  unfold memRead at h
  split at h
  · exact ⟨‹_›, h⟩
  · cases h

theorem tagCheck_of_eq {tag : BitVec 3} {s : State} {k : State → Result} (h : s.type = tag) :
    tagCheck tag s k = k s := if_pos h

theorem tagCheck_of_ne {tag : BitVec 3} {s : State} {k : State → Result} (h : s.type ≠ tag) :
    tagCheck tag s k = raise .typeMismatch s.type.toNat s := if_neg h

theorem tagCheck_next {tag : BitVec 3} {s t : State} {k : State → Result}
    (h : tagCheck tag s k = .next t) :
    (s.type = tag ∧ k s = .next t) ∨
      (s.type ≠ tag ∧ t = s.withResp (Resp.raised .typeMismatch s.type.toNat)) := by
  by_cases ht : s.type = tag
  · exact .inl ⟨ht, by rwa [tagCheck_of_eq ht] at h⟩
  · exact .inr ⟨ht, raise_next (by rwa [tagCheck_of_ne ht] at h)⟩

theorem radioCall_of_some {c : RadioCall} {s : State} {a : RadioAnswer}
    {k : RadioAnswer → State → Result} (h : s.nextAnswer = some a) :
    radioCall c s k = k a (s.called c) := by
  simp [radioCall, h]

theorem radioCall_of_none {c : RadioCall} {s : State} {k : RadioAnswer → State → Result}
    (h : s.nextAnswer = none) : radioCall c s k = .fault .radioNeverAnswers := by
  simp [radioCall, h]

theorem radioCall_next {c : RadioCall} {s t : State} {k : RadioAnswer → State → Result}
    (h : radioCall c s k = .next t) :
    ∃ a, s.nextAnswer = some a ∧ k a (s.called c) = .next t := by
  unfold radioCall at h
  split at h
  · exact ⟨_, ‹_›, h⟩
  · cases h

/-- What `StrScan` can answer: UNTERMINATED, or the continuation on the string it read. -/
theorem strScan_next {off : Nat} {s t : State} {k : List Byte → Nat → State → Result}
    (h : strScan off s k = .next t) :
    1 + s.ulen ≤ s.cfg.frameMax ∧
    (((s.mem.scanNul (s.ulen - off) off s.draws).1 = none ∧
        t = (s.withDraws (s.mem.scanNul (s.ulen - off) off s.draws).2).withResp
          (Resp.raised .unterminated s.ulen)) ∨
      ∃ n d, (s.mem.scanNul (s.ulen - off) off s.draws).1 = some (off + n) ∧ off + n < s.ulen ∧
        k (s.mem.readBytes n (1 + off) d).1 n
          (s.withDraws (s.mem.readBytes n (1 + off) d).2) = .next t) := by
  unfold strScan at h
  split at h
  · refine ⟨‹_›, ?_⟩
    dsimp only at h
    split at h
    · exact .inl ⟨‹_›, raise_next h⟩
    · rename_i j hj
      have hb := Memory.scanNul_bounds hj
      have h2 := (memRead_next h).2
      exact .inr ⟨j - off, _, by rw [hj]; congr 1; omega, by omega, h2⟩
  · cases h

/-- `StrScan` always completes on a frame inside the buffer, when its continuation does. -/
theorem strScan_completes {off : Nat} {s : State} {k : List Byte → Nat → State → Result}
    (hs : 1 + s.ulen ≤ s.cfg.frameMax) (hk : ∀ bs n s', ∃ t, k bs n s' = .next t) :
    ∃ t, strScan off s k = .next t := by
  unfold strScan
  rw [if_pos hs]
  dsimp only
  split
  · exact ⟨_, rfl⟩
  · rename_i j hj
    have hb := Memory.scanNul_bounds hj
    rw [memRead_of_le (by simp only [State.withDraws_cfg]; omega)]
    exact hk _ _ _

/-- `StrScan` over written text: the text before its NUL, and no draw. -/
theorem strScan_text {s : State} {off : Nat} {text : List Byte} (hn : nul ∉ text)
    (ht : ∀ j, j < text.length → s.body (off + j) = text[j]?)
    (hz : s.body (off + text.length) = some nul) (hu : off + text.length < s.ulen)
    (hc : s.ulen + 1 ≤ s.cfg.frameMax) (f : List Byte → Nat → Resp) :
    (strScan off s fun b k s' => complete (f b k) s') =
      .next (s.withResp (f text text.length)) := by
  have ht' : ∀ i, i < text.length → s.mem.read (1 + off + i) = text[i]? := fun i hi => by
    have := ht i hi
    rwa [State.body, ← Nat.add_assoc] at this
  have h := Memory.scanNul_text (m := s.mem) (fuel := s.ulen - off) (j := off) s.draws ht' hn
    (by rwa [State.body, ← Nat.add_assoc] at hz) (by omega)
  have h2 := Memory.readBytes_eq (m := s.mem) (a := 1 + off) s.draws ht'
  have e : off + text.length - off = text.length := by omega
  unfold strScan
  rw [if_pos (by omega)]
  dsimp only
  rw [h]
  dsimp only
  rw [memRead_of_le (by show 1 + off + (off + text.length - off) ≤ s.cfg.frameMax; omega), e]
  simp only [State.withDraws_mem, State.withDraws_draws, h2]
  rfl

/-- The get-code step over a written code byte. -/
theorem getCode_written {s : State} {c : Byte} (h : s.body 0 = some c) (hu : 1 ≤ s.ulen) :
    getCode s = .next (s.withResp (.done (c.setWidth 16))) := by
  have h2 : s.mem.readBytes 1 1 s.draws = ([c], s.draws) :=
    Memory.readBytes_eq (m := s.mem) (a := 1) s.draws (vs := [c]) fun i hi => by
      have : i = 0 := by simpa using hi
      subst this; exact h
  unfold getCode
  rw [if_neg (by omega), memRead_of_le (by have := s.cfg.three_le_frameMax; omega), h2]
  rfl

/-- The frame buffer read as header and body. -/
theorem State.read_eq {s t : State} (hh : s.hdr = t.hdr) (hb : ∀ j, s.body j = t.body j) (a : Nat) :
    s.mem.read a = t.mem.read a := by
  cases a with
  | zero => rw [s.read_zero, t.read_zero, hh]
  | succ a => have := hb a; simpa [State.body, Nat.add_comm] using this

/-- What sending answers: the radio is called once with the `w` bytes of the frame. -/
theorem sendFrame_next {panId dst : Word16} {w v : Nat} {s t : State}
    (h : sendFrame panId dst w v s = .next t) :
    ∃ bytes d a, (bytes, d) = s.mem.readBytes w 0 s.draws ∧ w ≤ s.cfg.frameMax ∧
      (s.withDraws d).nextAnswer = some a ∧
      t = ((s.withDraws d).called (.send panId dst bytes w)).withResp
        (Resp.done (lengthValue v) [] (.status a.status)) := by
  obtain ⟨hw, h1⟩ := memRead_next h
  obtain ⟨a, ha, h2⟩ := radioCall_next h1
  exact ⟨_, _, a, rfl, by omega, ha, complete_next h2⟩

/-- What receiving answers (47_framer.md R207). -/
theorem receive_next {r : Received} {s t : State} (h : receive r s = .next t) :
    (r.length ≤ 0 ∧ t = s.withResp (Resp.raised .noData r.length)) ∨
    ((s.cfg.frameMax : Int) < r.length ∧ t = s.withResp (Resp.raised .radioContract r.length)) ∨
    (0 < r.length ∧ r.length ≤ s.cfg.frameMax ∧
      t = ((s.memWrite 0 r.bytes).withUlen (r.bytes.length - 1)).withResp
        (Resp.done (lengthValue r.bytes.length))) := by
  unfold receive at h
  split at h
  · exact .inl ⟨‹_›, raise_next h⟩
  · split at h
    · exact .inr (.inl ⟨‹_›, raise_next h⟩)
    · exact .inr (.inr ⟨by omega, by omega, complete_next h⟩)

theorem received_length_eq {r : Received} (h : 0 < r.length) : r.length = r.bytes.length := by
  cases r with
  | nothing n => simp [Received.length] at h; omega
  | frame b bs => simp [Received.length, Received.bytes]

end Machine
end Sys2Proof
end

