-- ==== Sys2Proof/Laws/Exec.lean ====
section
/-! SUPPORT. What any instruction can do, said once: when exec answers a next state, that state is one of four shapes (exec_next). Every rule over all instructions cites this instead of unfolding the meanings. -/

namespace Sys2Proof.Machine

/-- How an instruction meets the radio. -/
inductive RadioUse where
  | local | sends | forwards | receives
deriving DecidableEq, Repr

/-- Which instructions call the radio, and how. -/
def radioUse : Instr → RadioUse
  | .fbInit => .local
  | .fbSetType _ => .local
  | .fbGetType => .local
  | .fbSetFlag _ _ => .local
  | .fbGetFlag _ => .local
  | .fbBodyRead _ => .local
  | .fbBodyWrite _ _ => .local
  | .fbResetLength _ => .local
  | .fbWireLength => .local
  | .dataInit => .local
  | .dataSet _ => .local
  | .dataGet => .local
  | .dataGetLength => .local
  | .dataSetFragmented _ => .local
  | .dataIsFragmented => .local
  | .cmdInit => .local
  | .cmdSetCode _ => .local
  | .cmdGetCode => .local
  | .cmdSetParam _ => .local
  | .cmdGetParam => .local
  | .cmdGetParamLength => .local
  | .cmdEnableAckRequest => .local
  | .cmdSetResponseRequested _ => .local
  | .cmdIsResponseRequested => .local
  | .ackInit => .local
  | .ackSetCode _ => .local
  | .ackGetCode => .local
  | .ackSetResponse _ => .local
  | .ackGetResponse => .local
  | .ackGetResponseLength => .local
  | .ntcInit => .local
  | .ntcSet _ => .local
  | .ntcGet => .local
  | .ntcGetLength => .local
  | .pktResolve => .local
  | .txSend _ _ => .sends
  | .txSendData _ _ _ _ => .sends
  | .txSendCommand _ _ _ _ => .sends
  | .txSendCommandWithAck _ _ _ _ => .sends
  | .txSendAck _ _ _ _ => .sends
  | .txSendNotice _ _ _ => .sends
  | .rxListen => .receives
  | .radioInit => .forwards
  | .radioBegin _ _ _ _ => .forwards
  | .radioEnd => .forwards
  | .radioRxEnable => .forwards
  | .radioRxDisable => .forwards
  | .radioGetSendMode => .forwards
  | .radioSetSendMode _ _ => .forwards
  | .radioSetAckReq _ => .forwards
  | .radioSetBroadcastEnb _ => .forwards
  | .radioSetPromiscuous _ => .forwards
  | .radioGetMyAddress => .forwards
  | .hdrTagData _ _ _ => .local
  | .hdrTagCommand _ _ _ => .local
  | .hdrTagAck _ _ _ => .local
  | .hdrTagNotice _ _ _ => .local
  | .hdrTagReserved _ _ _ _ => .local

/-- The statuses an instruction can raise. -/
def mayRaise : Instr → List Status
  | .fbInit => []
  | .fbSetType _ => []
  | .fbGetType => []
  | .fbSetFlag _ _ => []
  | .fbGetFlag _ => []
  | .fbBodyRead _ => [.badIndex]
  | .fbBodyWrite _ _ => [.badIndex]
  | .fbResetLength _ => [.capacityViolation]
  | .fbWireLength => []
  | .dataInit => []
  | .dataSet _ => [.typeMismatch]
  | .dataGet => [.typeMismatch]
  | .dataGetLength => [.typeMismatch]
  | .dataSetFragmented _ => [.typeMismatch]
  | .dataIsFragmented => [.typeMismatch]
  | .cmdInit => []
  | .cmdSetCode _ => [.typeMismatch]
  | .cmdGetCode => [.typeMismatch, .shortFrame]
  | .cmdSetParam _ => [.typeMismatch]
  | .cmdGetParam => [.typeMismatch, .unterminated]
  | .cmdGetParamLength => [.typeMismatch, .unterminated]
  | .cmdEnableAckRequest => [.typeMismatch]
  | .cmdSetResponseRequested _ => [.typeMismatch]
  | .cmdIsResponseRequested => [.typeMismatch]
  | .ackInit => []
  | .ackSetCode _ => [.typeMismatch]
  | .ackGetCode => [.typeMismatch, .shortFrame]
  | .ackSetResponse _ => [.typeMismatch]
  | .ackGetResponse => [.typeMismatch, .unterminated]
  | .ackGetResponseLength => [.typeMismatch, .unterminated]
  | .ntcInit => []
  | .ntcSet _ => [.typeMismatch]
  | .ntcGet => [.typeMismatch, .unterminated]
  | .ntcGetLength => [.typeMismatch, .unterminated]
  | .pktResolve => [.unknownType]
  | .txSend _ _ => []
  | .txSendData _ _ _ _ => []
  | .txSendCommand _ _ _ _ => []
  | .txSendCommandWithAck _ _ _ _ => []
  | .txSendAck _ _ _ _ => []
  | .txSendNotice _ _ _ => []
  | .rxListen => [.noData, .radioContract]
  | .radioInit => []
  | .radioBegin _ _ _ _ => []
  | .radioEnd => []
  | .radioRxEnable => []
  | .radioRxDisable => []
  | .radioGetSendMode => []
  | .radioSetSendMode _ _ => []
  | .radioSetAckReq _ => []
  | .radioSetBroadcastEnb _ => []
  | .radioSetPromiscuous _ => []
  | .radioGetMyAddress => []
  | .hdrTagData _ _ _ => []
  | .hdrTagCommand _ _ _ => []
  | .hdrTagAck _ _ _ => []
  | .hdrTagNotice _ _ _ => []
  | .hdrTagReserved _ _ _ _ => [.unknownType]

/-- The state after the frame writes of an instruction that completes with OK (RX_LISTEN's are in
`Ran.received`). -/
def written : Instr → State → State
  | .fbInit, s => (s.setHdr 0x00).withUlen 0
  | .fbSetType tag, s => s.setHdr (putType s.hdr tag)
  | .fbGetType, s => s
  | .fbSetFlag sel value, s => s.setHdr (putFlag s.hdr sel value)
  | .fbGetFlag _, s => s
  | .fbBodyRead _, s => s
  | .fbBodyWrite index value, s => s.setBody index.toNat value
  | .fbResetLength n, s => s.withUlen n.toNat
  | .fbWireLength, s => s
  | .dataInit, s => variantInit 0 s
  | .dataSet str, s => dataStore str s
  | .dataGet, s => s
  | .dataGetLength, s => s
  | .dataSetFragmented value, s => s.setHdr (putFlag s.hdr .fragmented value)
  | .dataIsFragmented, s => s
  | .cmdInit, s => variantInit 1 s
  | .cmdSetCode cmd, s => setCode cmd s
  | .cmdGetCode, s => s
  | .cmdSetParam str, s => strStore 1 s.cfg.cmdRegion str s
  | .cmdGetParam, s => s
  | .cmdGetParamLength, s => s
  | .cmdEnableAckRequest, s => s.setHdr (s.hdr ||| 0x08#8)
  | .cmdSetResponseRequested value, s => s.setHdr (putFlag s.hdr .responseRequested value)
  | .cmdIsResponseRequested, s => s
  | .ackInit, s => variantInit 2 s
  | .ackSetCode cmd, s => setCode cmd s
  | .ackGetCode, s => s
  | .ackSetResponse str, s => strStore 1 s.cfg.cmdRegion str s
  | .ackGetResponse, s => s
  | .ackGetResponseLength, s => s
  | .ntcInit, s => variantInit 3 s
  | .ntcSet str, s => strStore 0 s.cfg.noticeRegion str s
  | .ntcGet, s => s
  | .ntcGetLength, s => s
  | .pktResolve, s => s
  | .txSend _ _, s => s
  | .txSendData _ _ fragment str, s => buildData fragment str s
  | .txSendCommand _ _ cmd str, s => buildCode 1 cmd str s
  | .txSendCommandWithAck _ _ cmd str, s => (buildCode 1 cmd str s).setHdr ((buildCode 1 cmd str s).hdr ||| 0x08#8)
  | .txSendAck _ _ cmd str, s => buildCode 2 cmd str s
  | .txSendNotice _ _ str, s => strStore 0 s.cfg.noticeRegion str (variantInit 3 s)
  | .rxListen, s => s
  | .radioInit, s => s
  | .radioBegin _ _ _ _, s => s
  | .radioEnd, s => s
  | .radioRxEnable, s => s
  | .radioRxDisable, s => s
  | .radioGetSendMode, s => s
  | .radioSetSendMode _ _, s => s
  | .radioSetAckReq _, s => s
  | .radioSetBroadcastEnb _, s => s
  | .radioSetPromiscuous _, s => s
  | .radioGetMyAddress, s => s
  | .hdrTagData _ _ _, s => s
  | .hdrTagCommand _ _ _, s => s
  | .hdrTagAck _ _ _, s => s
  | .hdrTagNotice _ _ _, s => s
  | .hdrTagReserved _ _ _ _, s => s

/-- The bound that an instruction which writes a checked operand has checked. -/
def inBounds (s : State) : Instr → Prop
  | .fbBodyWrite index _ => index.toNat < s.cfg.bodyCap
  | .fbResetLength n => n.toNat ≤ s.cfg.bodyCap
  | _ => True

/-- The shapes of the next state of an instruction. -/
inductive Ran (i : Instr) (s : State) : State → Prop
  /-- a status was raised: only the response registers (and the count of draws) changed -/
  | raised (e : Status) (info : Int) (d : Nat) (he : e ∈ mayRaise i) (hu : radioUse i = .local) :
      Ran i s ((s.withDraws d).withResp (Resp.raised e info))
  /-- completed without the radio -/
  | done (v : Word16) (bytes : List Byte) (d : Nat) (hu : radioUse i = .local) (hb : inBounds s i) :
      Ran i s (((written i s).withDraws d).withResp (Resp.done v bytes))
  /-- completed with one radio call, whose answer is in `resp.rstat` -/
  | called (c : RadioCall) (v : Word16) (rs : RStat) (d : Nat)
      (hu : radioUse i = .sends ∨ radioUse i = .forwards) :
      Ran i s ((((written i s).withDraws d).called c).withResp (Resp.done v [] rs))
  /-- RX_LISTEN called the radio and raised a status -/
  | refused (c : RadioCall) (e : Status) (info : Int) (he : e ∈ mayRaise i)
      (hu : radioUse i = .receives) :
      Ran i s ((s.called c).withResp (Resp.raised e info))
  /-- RX_LISTEN called the radio and committed a frame -/
  | received (c : RadioCall) (v : Word16) (bytes : List Byte) (hn : bytes ≠ [])
      (hl : bytes.length ≤ s.cfg.frameMax) (hu : radioUse i = .receives) :
      Ran i s ((((s.called c).memWrite 0 bytes).withUlen (bytes.length - 1)).withResp (Resp.done v))

section
variable {i : Instr} {s t : State}

theorem raised_of {e : Status} {info : Int} (h : raise e info s = .next t) (he : e ∈ mayRaise i)
    (hu : radioUse i = .local := by rfl) : Ran i s t := by
  rw [raise_next h]; exact .raised e info s.draws he hu

theorem done_of {v : Word16} {bytes : List Byte} {s1 : State}
    (h : complete (.done v bytes) s1 = .next t) (hw : written i s = s1) (hb : inBounds s i)
    (hu : radioUse i = .local := by rfl) : Ran i s t := by
  rw [complete_next h, ← hw]; exact .done v bytes (written i s).draws hu hb

theorem tagged {tag : BitVec 3} {k : State → Result} (h : tagCheck tag s k = .next t)
    (he : Status.typeMismatch ∈ mayRaise i) (hk : k s = .next t → Ran i s t)
    (hu : radioUse i = .local := by rfl) : Ran i s t := by
  rcases tagCheck_next h with ⟨_, h⟩ | ⟨_, rfl⟩
  · exact hk h
  · exact .raised _ _ s.draws he hu

theorem guarded {p : Prop} [Decidable p] {a b : Result} (h : (if p then a else b) = .next t)
    (ha : a = .next t → Ran i s t) (hb : ¬ p → b = .next t → Ran i s t) : Ran i s t := by
  split at h
  · exact ha h
  · exact hb ‹_› h

theorem read_done {addr n : Nat} {f : List Byte → Resp}
    (h : (memRead s addr n fun bytes s' => complete (f bytes) s') = .next t)
    (hw : written i s = s) (hb : inBounds s i)
    (hf : ∀ b, ∃ v bs, f b = Resp.done v bs := by exact fun _ => ⟨_, _, rfl⟩)
    (hu : radioUse i = .local := by rfl) : Ran i s t := by
  obtain ⟨v, bs, hv⟩ := hf (s.mem.readBytes n addr s.draws).1
  have h2 := complete_next (memRead_next h).2
  rw [hv] at h2
  have h3 := Ran.done (i := i) (s := s) v bs (s.mem.readBytes n addr s.draws).2 hu hb
  rw [hw] at h3
  exact h2 ▸ h3

theorem getCode_ran (h : getCode s = .next t) (he : Status.shortFrame ∈ mayRaise i)
    (hw : written i s = s) (hb : inBounds s i) (hu : radioUse i = .local := by rfl) : Ran i s t :=
  guarded h (fun h => raised_of h he hu) fun _ h => read_done h hw hb (fun _ => ⟨_, _, rfl⟩) hu

theorem scan_ran {off : Nat} {f : List Byte → Nat → Resp}
    (h : (strScan off s fun bytes k s' => complete (f bytes k) s') = .next t)
    (he : Status.unterminated ∈ mayRaise i) (hw : written i s = s) (hb : inBounds s i)
    (hf : ∀ b k, ∃ v bs, f b k = Resp.done v bs := by exact fun _ _ => ⟨_, _, rfl⟩)
    (hu : radioUse i = .local := by rfl) : Ran i s t := by
  rcases strScan_next h with ⟨_, ⟨_, rfl⟩ | ⟨n, d, _, _, hk⟩⟩
  · exact .raised _ _ _ he hu
  · obtain ⟨v, bs, hv⟩ := hf (s.mem.readBytes n (1 + off) d).1 n
    have h2 := complete_next hk
    rw [hv] at h2
    have h3 := Ran.done (i := i) (s := s) v bs (s.mem.readBytes n (1 + off) d).2 hu hb
    rw [hw] at h3
    exact h2 ▸ h3

theorem sent_of {panId dst : Word16} {w v : Nat} {s1 : State}
    (h : sendFrame panId dst w v s1 = .next t) (hw : written i s = s1)
    (hu : radioUse i = .sends := by rfl) : Ran i s t := by
  obtain ⟨bytes, d, a, _, _, _, rfl⟩ := sendFrame_next h
  rw [← hw]; exact .called _ _ _ d (.inl hu)

theorem forwarded_of {c : RadioCall} {f : RadioAnswer → RStat}
    (h : (radioCall c s fun a s' => complete (.done 0 [] (f a)) s') = .next t)
    (hw : written i s = s) (hu : radioUse i = .forwards := by rfl) : Ran i s t := by
  obtain ⟨a, _, h2⟩ := radioCall_next h
  have h3 := Ran.called (i := i) (s := s) c 0 (f a) s.draws (.inr hu)
  rw [hw] at h3
  exact complete_next h2 ▸ h3

theorem received_of {c : RadioCall} (h : (radioCall c s fun a s' => receive a.received s') = .next t)
    (hu : radioUse i = .receives) (h1 : Status.noData ∈ mayRaise i)
    (h2 : Status.radioContract ∈ mayRaise i) : Ran i s t := by
  obtain ⟨a, _, hr⟩ := radioCall_next h
  rcases receive_next hr with ⟨_, rfl⟩ | ⟨_, rfl⟩ | ⟨hp, hm, rfl⟩
  · exact .refused _ _ _ h1 hu
  · exact .refused _ _ _ h2 hu
  · have hl := received_length_eq hp
    refine .received c _ _ (fun h0 => ?_) ?_ hu
    · rw [hl, h0] at hp; exact absurd hp (by decide)
    · rw [hl] at hm; exact_mod_cast hm

end

/-- What an instruction can do: every next state of exec is one of the shapes of `Ran`. -/
theorem exec_next {i : Instr} {s t : State} (h : exec i s = .next t) : Ran i s t := by
  cases i with
  | fbInit => exact done_of h rfl trivial
  | fbSetType _ => exact done_of h rfl trivial
  | fbGetType => exact done_of h rfl trivial
  | fbSetFlag _ _ => exact done_of h rfl trivial
  | fbGetFlag _ => exact done_of h rfl trivial
  | fbBodyRead _ => exact guarded h (fun h => raised_of h (List.mem_singleton.2 rfl)) fun _ h => read_done h rfl trivial
  | fbBodyWrite _ _ => exact guarded h (fun h => raised_of h (List.mem_singleton.2 rfl)) fun hg h => done_of h rfl (by exact Nat.lt_of_not_le hg)
  | fbResetLength _ => exact guarded h (fun h => raised_of h (List.mem_singleton.2 rfl)) fun hg h => done_of h rfl (by exact Nat.le_of_not_lt hg)
  | fbWireLength => exact done_of h rfl trivial
  | dataInit => exact done_of h rfl trivial
  | dataSet _ =>
    unfold exec execDataSet at h
    exact tagged h (List.mem_singleton.2 rfl) fun h => done_of h rfl trivial
  | dataGet =>
    unfold exec execDataGet at h
    exact tagged h (List.mem_singleton.2 rfl) fun h => read_done h rfl trivial
  | dataGetLength =>
    unfold exec execDataGetLength at h
    exact tagged h (List.mem_singleton.2 rfl) fun h => done_of h rfl trivial
  | dataSetFragmented _ =>
    unfold exec execDataSetFragmented at h
    exact tagged h (List.mem_singleton.2 rfl) fun h => done_of h rfl trivial
  | dataIsFragmented =>
    unfold exec execDataIsFragmented at h
    exact tagged h (List.mem_singleton.2 rfl) fun h => done_of h rfl trivial
  | cmdInit => exact done_of h rfl trivial
  | cmdSetCode _ =>
    unfold exec execCmdSetCode at h
    exact tagged h (List.mem_singleton.2 rfl) fun h => done_of h rfl trivial
  | cmdGetCode =>
    unfold exec execCmdGetCode at h
    exact tagged h (by decide) fun h => getCode_ran h (by decide) rfl trivial
  | cmdSetParam _ =>
    unfold exec execCmdSetParam at h
    exact tagged h (List.mem_singleton.2 rfl) fun h => done_of h rfl trivial
  | cmdGetParam =>
    unfold exec execCmdGetParam at h
    exact tagged h (by decide) fun h => scan_ran h (by decide) rfl trivial
  | cmdGetParamLength =>
    unfold exec execCmdGetParamLength at h
    exact tagged h (by decide) fun h => scan_ran h (by decide) rfl trivial
  | cmdEnableAckRequest =>
    unfold exec execCmdEnableAckRequest at h
    exact tagged h (List.mem_singleton.2 rfl) fun h => done_of h rfl trivial
  | cmdSetResponseRequested _ =>
    unfold exec execCmdSetResponseRequested at h
    exact tagged h (List.mem_singleton.2 rfl) fun h => done_of h rfl trivial
  | cmdIsResponseRequested =>
    unfold exec execCmdIsResponseRequested at h
    exact tagged h (List.mem_singleton.2 rfl) fun h => done_of h rfl trivial
  | ackInit => exact done_of h rfl trivial
  | ackSetCode _ =>
    unfold exec execAckSetCode at h
    exact tagged h (List.mem_singleton.2 rfl) fun h => done_of h rfl trivial
  | ackGetCode =>
    unfold exec execAckGetCode at h
    exact tagged h (by decide) fun h => getCode_ran h (by decide) rfl trivial
  | ackSetResponse _ =>
    unfold exec execAckSetResponse at h
    exact tagged h (List.mem_singleton.2 rfl) fun h => done_of h rfl trivial
  | ackGetResponse =>
    unfold exec execAckGetResponse at h
    exact tagged h (by decide) fun h => scan_ran h (by decide) rfl trivial
  | ackGetResponseLength =>
    unfold exec execAckGetResponseLength at h
    exact tagged h (by decide) fun h => scan_ran h (by decide) rfl trivial
  | ntcInit => exact done_of h rfl trivial
  | ntcSet _ =>
    unfold exec execNtcSet at h
    exact tagged h (List.mem_singleton.2 rfl) fun h => done_of h rfl trivial
  | ntcGet =>
    unfold exec execNtcGet at h
    exact tagged h (by decide) fun h => scan_ran h (by decide) rfl trivial
  | ntcGetLength =>
    unfold exec execNtcGetLength at h
    exact tagged h (by decide) fun h => scan_ran h (by decide) rfl trivial
  | pktResolve => exact guarded h (fun h => raised_of h (List.mem_singleton.2 rfl)) fun _ h => done_of h rfl trivial
  | txSend _ _ => exact sent_of h rfl
  | txSendData _ _ _ _ => exact sent_of h rfl
  | txSendCommand _ _ _ _ => exact sent_of h rfl
  | txSendCommandWithAck _ _ _ _ => exact sent_of h rfl
  | txSendAck _ _ _ _ => exact sent_of h rfl
  | txSendNotice _ _ _ => exact sent_of h rfl
  | rxListen => exact received_of h rfl (by decide) (by decide)
  | radioInit => exact forwarded_of h rfl
  | radioBegin _ _ _ _ => exact forwarded_of h rfl
  | radioEnd => exact forwarded_of h rfl
  | radioRxEnable => exact forwarded_of h rfl
  | radioRxDisable => exact forwarded_of h rfl
  | radioGetSendMode => exact forwarded_of h rfl
  | radioSetSendMode _ _ => exact forwarded_of h rfl
  | radioSetAckReq _ => exact forwarded_of h rfl
  | radioSetBroadcastEnb _ => exact forwarded_of h rfl
  | radioSetPromiscuous _ => exact forwarded_of h rfl
  | radioGetMyAddress => exact forwarded_of h rfl
  | hdrTagData _ _ _ => exact done_of h rfl trivial
  | hdrTagCommand _ _ _ => exact done_of h rfl trivial
  | hdrTagAck _ _ _ => exact done_of h rfl trivial
  | hdrTagNotice _ _ _ => exact done_of h rfl trivial
  | hdrTagReserved _ _ _ _ => exact raised_of h (List.mem_singleton.2 rfl)

end Sys2Proof.Machine
end

