-- ==== Sys2Proof/Laws/PerInstr.lean ====
section
/-! SUPPORT. The per-instruction family EncodedForm: the encoding of a row leaves every field the row does not read zero, and the reserved byte zero (30_encoding.md R65, R66). -/

namespace Sys2Proof.Laws.EncodedForm

/-- The command of an instruction has its reserved byte zero, every word field its row does not read zero,
and `S` empty where its row reads none; a header byte carries no command operand. -/
def Statement (i : Instr) : Prop :=
  (∀ c, encode i = .command c → c.reserved = 0#8 ∧
    (Operand.a ∉ operands i → c.a = 0#8) ∧ (Operand.p ∉ operands i → c.p = 0#16) ∧
    (Operand.q ∉ operands i → c.q = 0#16) ∧ (Operand.r ∉ operands i → c.r = 0#8) ∧
    (Operand.s ∉ operands i → c.str = [])) ∧
  ∀ h, encode i = .header h → operands i = []

/-- A row encoded as a command. -/
theorem of_command {i : Instr} {op a : Byte} {p q : Word16} {r : Byte} {str : List Byte}
    (h : encode i = .command ⟨packWord op a p q r, str⟩)
    (ha : Operand.a ∉ operands i → a = 0#8) (hp : Operand.p ∉ operands i → p = 0#16)
    (hq : Operand.q ∉ operands i → q = 0#16) (hr : Operand.r ∉ operands i → r = 0#8)
    (hs : Operand.s ∉ operands i → str = []) : Statement i := by
  refine ⟨fun c hc => ?_, fun x hx => by rw [h] at hx; cases hx⟩
  rw [h] at hc
  cases hc
  exact ⟨by simp, by simpa using ha, by simpa using hp, by simpa using hq, by simpa using hr, hs⟩

/-- A row encoded as a header byte. -/
theorem of_header {i : Instr} {b : Byte} (h : encode i = .header b) (ho : operands i = []) :
    Statement i :=
  ⟨fun _ hc => absurd (h.symm.trans hc) nofun, fun _ _ => ho⟩

theorem fbInit : Statement .fbInit :=
  of_command rfl (fun _ => rfl) (fun _ => rfl) (fun _ => rfl) (fun _ => rfl) (fun _ => rfl)

theorem fbSetType (tag : BitVec 3) : Statement (.fbSetType tag) :=
  of_command rfl (fun h => absurd (List.elem_iff.1 rfl) h) (fun _ => rfl) (fun _ => rfl) (fun _ => rfl) (fun _ => rfl)

theorem fbGetType : Statement .fbGetType :=
  of_command rfl (fun _ => rfl) (fun _ => rfl) (fun _ => rfl) (fun _ => rfl) (fun _ => rfl)

theorem fbSetFlag (sel : Flag) (value : Bool) : Statement (.fbSetFlag sel value) :=
  of_command rfl (fun h => absurd (List.elem_iff.1 rfl) h) (fun _ => rfl) (fun _ => rfl) (fun _ => rfl) (fun _ => rfl)

theorem fbGetFlag (sel : Flag) : Statement (.fbGetFlag sel) :=
  of_command rfl (fun h => absurd (List.elem_iff.1 rfl) h) (fun _ => rfl) (fun _ => rfl) (fun _ => rfl) (fun _ => rfl)

theorem fbBodyRead (index : Word16) : Statement (.fbBodyRead index) :=
  of_command rfl (fun _ => rfl) (fun h => absurd (List.elem_iff.1 rfl) h) (fun _ => rfl) (fun _ => rfl) (fun _ => rfl)

theorem fbBodyWrite (index : Word16) (value : Byte) : Statement (.fbBodyWrite index value) :=
  of_command rfl (fun h => absurd (List.elem_iff.1 rfl) h) (fun h => absurd (List.elem_iff.1 rfl) h) (fun _ => rfl) (fun _ => rfl) (fun _ => rfl)

theorem fbResetLength (n : Word16) : Statement (.fbResetLength n) :=
  of_command rfl (fun _ => rfl) (fun h => absurd (List.elem_iff.1 rfl) h) (fun _ => rfl) (fun _ => rfl) (fun _ => rfl)

theorem fbWireLength : Statement .fbWireLength :=
  of_command rfl (fun _ => rfl) (fun _ => rfl) (fun _ => rfl) (fun _ => rfl) (fun _ => rfl)

theorem dataInit : Statement .dataInit :=
  of_command rfl (fun _ => rfl) (fun _ => rfl) (fun _ => rfl) (fun _ => rfl) (fun _ => rfl)

theorem dataSet (str : List Byte) : Statement (.dataSet str) :=
  of_command rfl (fun _ => rfl) (fun _ => rfl) (fun _ => rfl) (fun _ => rfl) (fun h => absurd (List.elem_iff.1 rfl) h)

theorem dataGet : Statement .dataGet :=
  of_command rfl (fun _ => rfl) (fun _ => rfl) (fun _ => rfl) (fun _ => rfl) (fun _ => rfl)

theorem dataGetLength : Statement .dataGetLength :=
  of_command rfl (fun _ => rfl) (fun _ => rfl) (fun _ => rfl) (fun _ => rfl) (fun _ => rfl)

theorem dataSetFragmented (value : Bool) : Statement (.dataSetFragmented value) :=
  of_command rfl (fun h => absurd (List.elem_iff.1 rfl) h) (fun _ => rfl) (fun _ => rfl) (fun _ => rfl) (fun _ => rfl)

theorem dataIsFragmented : Statement .dataIsFragmented :=
  of_command rfl (fun _ => rfl) (fun _ => rfl) (fun _ => rfl) (fun _ => rfl) (fun _ => rfl)

theorem cmdInit : Statement .cmdInit :=
  of_command rfl (fun _ => rfl) (fun _ => rfl) (fun _ => rfl) (fun _ => rfl) (fun _ => rfl)

theorem cmdSetCode (cmd : Byte) : Statement (.cmdSetCode cmd) :=
  of_command rfl (fun h => absurd (List.elem_iff.1 rfl) h) (fun _ => rfl) (fun _ => rfl) (fun _ => rfl) (fun _ => rfl)

theorem cmdGetCode : Statement .cmdGetCode :=
  of_command rfl (fun _ => rfl) (fun _ => rfl) (fun _ => rfl) (fun _ => rfl) (fun _ => rfl)

theorem cmdSetParam (str : List Byte) : Statement (.cmdSetParam str) :=
  of_command rfl (fun _ => rfl) (fun _ => rfl) (fun _ => rfl) (fun _ => rfl) (fun h => absurd (List.elem_iff.1 rfl) h)

theorem cmdGetParam : Statement .cmdGetParam :=
  of_command rfl (fun _ => rfl) (fun _ => rfl) (fun _ => rfl) (fun _ => rfl) (fun _ => rfl)

theorem cmdGetParamLength : Statement .cmdGetParamLength :=
  of_command rfl (fun _ => rfl) (fun _ => rfl) (fun _ => rfl) (fun _ => rfl) (fun _ => rfl)

theorem cmdEnableAckRequest : Statement .cmdEnableAckRequest :=
  of_command rfl (fun _ => rfl) (fun _ => rfl) (fun _ => rfl) (fun _ => rfl) (fun _ => rfl)

theorem cmdSetResponseRequested (value : Bool) : Statement (.cmdSetResponseRequested value) :=
  of_command rfl (fun h => absurd (List.elem_iff.1 rfl) h) (fun _ => rfl) (fun _ => rfl) (fun _ => rfl) (fun _ => rfl)

theorem cmdIsResponseRequested : Statement .cmdIsResponseRequested :=
  of_command rfl (fun _ => rfl) (fun _ => rfl) (fun _ => rfl) (fun _ => rfl) (fun _ => rfl)

theorem ackInit : Statement .ackInit :=
  of_command rfl (fun _ => rfl) (fun _ => rfl) (fun _ => rfl) (fun _ => rfl) (fun _ => rfl)

theorem ackSetCode (cmd : Byte) : Statement (.ackSetCode cmd) :=
  of_command rfl (fun h => absurd (List.elem_iff.1 rfl) h) (fun _ => rfl) (fun _ => rfl) (fun _ => rfl) (fun _ => rfl)

theorem ackGetCode : Statement .ackGetCode :=
  of_command rfl (fun _ => rfl) (fun _ => rfl) (fun _ => rfl) (fun _ => rfl) (fun _ => rfl)

theorem ackSetResponse (str : List Byte) : Statement (.ackSetResponse str) :=
  of_command rfl (fun _ => rfl) (fun _ => rfl) (fun _ => rfl) (fun _ => rfl) (fun h => absurd (List.elem_iff.1 rfl) h)

theorem ackGetResponse : Statement .ackGetResponse :=
  of_command rfl (fun _ => rfl) (fun _ => rfl) (fun _ => rfl) (fun _ => rfl) (fun _ => rfl)

theorem ackGetResponseLength : Statement .ackGetResponseLength :=
  of_command rfl (fun _ => rfl) (fun _ => rfl) (fun _ => rfl) (fun _ => rfl) (fun _ => rfl)

theorem ntcInit : Statement .ntcInit :=
  of_command rfl (fun _ => rfl) (fun _ => rfl) (fun _ => rfl) (fun _ => rfl) (fun _ => rfl)

theorem ntcSet (str : List Byte) : Statement (.ntcSet str) :=
  of_command rfl (fun _ => rfl) (fun _ => rfl) (fun _ => rfl) (fun _ => rfl) (fun h => absurd (List.elem_iff.1 rfl) h)

theorem ntcGet : Statement .ntcGet :=
  of_command rfl (fun _ => rfl) (fun _ => rfl) (fun _ => rfl) (fun _ => rfl) (fun _ => rfl)

theorem ntcGetLength : Statement .ntcGetLength :=
  of_command rfl (fun _ => rfl) (fun _ => rfl) (fun _ => rfl) (fun _ => rfl) (fun _ => rfl)

theorem pktResolve : Statement .pktResolve :=
  of_command rfl (fun _ => rfl) (fun _ => rfl) (fun _ => rfl) (fun _ => rfl) (fun _ => rfl)

theorem txSend (panId : Word16) (dst : Word16) : Statement (.txSend panId dst) :=
  of_command rfl (fun _ => rfl) (fun h => absurd (List.elem_iff.1 rfl) h) (fun h => absurd (List.elem_iff.1 rfl) h) (fun _ => rfl) (fun _ => rfl)

theorem txSendData (panId : Word16) (dst : Word16) (fragment : Bool) (str : List Byte) : Statement (.txSendData panId dst fragment str) :=
  of_command rfl (fun h => absurd (List.elem_iff.1 rfl) h) (fun h => absurd (List.elem_iff.1 rfl) h) (fun h => absurd (List.elem_iff.1 rfl) h) (fun _ => rfl) (fun h => absurd (List.elem_iff.1 rfl) h)

theorem txSendCommand (panId : Word16) (dst : Word16) (cmd : Byte) (str : List Byte) : Statement (.txSendCommand panId dst cmd str) :=
  of_command rfl (fun h => absurd (List.elem_iff.1 rfl) h) (fun h => absurd (List.elem_iff.1 rfl) h) (fun h => absurd (List.elem_iff.1 rfl) h) (fun _ => rfl) (fun h => absurd (List.elem_iff.1 rfl) h)

theorem txSendCommandWithAck (panId : Word16) (dst : Word16) (cmd : Byte) (str : List Byte) : Statement (.txSendCommandWithAck panId dst cmd str) :=
  of_command rfl (fun h => absurd (List.elem_iff.1 rfl) h) (fun h => absurd (List.elem_iff.1 rfl) h) (fun h => absurd (List.elem_iff.1 rfl) h) (fun _ => rfl) (fun h => absurd (List.elem_iff.1 rfl) h)

theorem txSendAck (panId : Word16) (dst : Word16) (cmd : Byte) (str : List Byte) : Statement (.txSendAck panId dst cmd str) :=
  of_command rfl (fun h => absurd (List.elem_iff.1 rfl) h) (fun h => absurd (List.elem_iff.1 rfl) h) (fun h => absurd (List.elem_iff.1 rfl) h) (fun _ => rfl) (fun h => absurd (List.elem_iff.1 rfl) h)

theorem txSendNotice (panId : Word16) (dst : Word16) (str : List Byte) : Statement (.txSendNotice panId dst str) :=
  of_command rfl (fun _ => rfl) (fun h => absurd (List.elem_iff.1 rfl) h) (fun h => absurd (List.elem_iff.1 rfl) h) (fun _ => rfl) (fun h => absurd (List.elem_iff.1 rfl) h)

theorem rxListen : Statement .rxListen :=
  of_command rfl (fun _ => rfl) (fun _ => rfl) (fun _ => rfl) (fun _ => rfl) (fun _ => rfl)

theorem radioInit : Statement .radioInit :=
  of_command rfl (fun _ => rfl) (fun _ => rfl) (fun _ => rfl) (fun _ => rfl) (fun _ => rfl)

theorem radioBegin (channel : Byte) (panId : Word16) (rate : Word16) (power : Byte) : Statement (.radioBegin channel panId rate power) :=
  of_command rfl (fun h => absurd (List.elem_iff.1 rfl) h) (fun h => absurd (List.elem_iff.1 rfl) h) (fun h => absurd (List.elem_iff.1 rfl) h) (fun h => absurd (List.elem_iff.1 rfl) h) (fun _ => rfl)

theorem radioEnd : Statement .radioEnd :=
  of_command rfl (fun _ => rfl) (fun _ => rfl) (fun _ => rfl) (fun _ => rfl) (fun _ => rfl)

theorem radioRxEnable : Statement .radioRxEnable :=
  of_command rfl (fun _ => rfl) (fun _ => rfl) (fun _ => rfl) (fun _ => rfl) (fun _ => rfl)

theorem radioRxDisable : Statement .radioRxDisable :=
  of_command rfl (fun _ => rfl) (fun _ => rfl) (fun _ => rfl) (fun _ => rfl) (fun _ => rfl)

theorem radioGetSendMode : Statement .radioGetSendMode :=
  of_command rfl (fun _ => rfl) (fun _ => rfl) (fun _ => rfl) (fun _ => rfl) (fun _ => rfl)

theorem radioSetSendMode (addrType : Byte) (txRetry : Byte) : Statement (.radioSetSendMode addrType txRetry) :=
  of_command rfl (fun h => absurd (List.elem_iff.1 rfl) h) (fun _ => rfl) (fun _ => rfl) (fun h => absurd (List.elem_iff.1 rfl) h) (fun _ => rfl)

theorem radioSetAckReq (value : Bool) : Statement (.radioSetAckReq value) :=
  of_command rfl (fun h => absurd (List.elem_iff.1 rfl) h) (fun _ => rfl) (fun _ => rfl) (fun _ => rfl) (fun _ => rfl)

theorem radioSetBroadcastEnb (value : Bool) : Statement (.radioSetBroadcastEnb value) :=
  of_command rfl (fun h => absurd (List.elem_iff.1 rfl) h) (fun _ => rfl) (fun _ => rfl) (fun _ => rfl) (fun _ => rfl)

theorem radioSetPromiscuous (value : Bool) : Statement (.radioSetPromiscuous value) :=
  of_command rfl (fun h => absurd (List.elem_iff.1 rfl) h) (fun _ => rfl) (fun _ => rfl) (fun _ => rfl) (fun _ => rfl)

theorem radioGetMyAddress : Statement .radioGetMyAddress :=
  of_command rfl (fun _ => rfl) (fun _ => rfl) (fun _ => rfl) (fun _ => rfl) (fun _ => rfl)

theorem hdrTagData (rr : Bool) (frag : Bool) (unused : BitVec 3) : Statement (.hdrTagData rr frag unused) :=
  of_header rfl rfl

theorem hdrTagCommand (rr : Bool) (frag : Bool) (unused : BitVec 3) : Statement (.hdrTagCommand rr frag unused) :=
  of_header rfl rfl

theorem hdrTagAck (rr : Bool) (frag : Bool) (unused : BitVec 3) : Statement (.hdrTagAck rr frag unused) :=
  of_header rfl rfl

theorem hdrTagNotice (rr : Bool) (frag : Bool) (unused : BitVec 3) : Statement (.hdrTagNotice rr frag unused) :=
  of_header rfl rfl

theorem hdrTagReserved (tag : BitVec 3) (rr : Bool) (frag : Bool) (unused : BitVec 3) : Statement (.hdrTagReserved tag rr frag unused) :=
  of_header rfl rfl

end Sys2Proof.Laws.EncodedForm
end

