-- ==== Sys2Proof/Tests/Slice0.lean ====
section
/-! SUPPORT. Tests of the model against the words and vectors of the spec (95_test_vectors.md unless said), and a witness for the hypotheses of every statement. -/

namespace Sys2Proof.Machine.Tests

open Sys2Proof.Machine.Claims

/-! ## Helpers -/

/-- What the decoder reads from the word and the byte string. -/
def decoded (w : CmdWord) (str : List Byte) : Option Instr := (decodeCommand ⟨w, str⟩).toOption

/-- The decoder raises ILLEGAL_OP with this cause value. -/
def illegal (w : CmdWord) : Option Int :=
  match decodeCommand ⟨w, []⟩ with
  | .ok _ => none
  | .error e => some e.info

/-- A state that holds the frame of this header and these body bytes, every other byte UNWRITTEN. -/
def held (h : Byte) (body : List Byte) (ulen : Nat) : State :=
  { State.reset with mem := Memory.writeBytes [] 0 (h :: body), ulen := ulen }

/-- The same with FRAME_MAX = 6: BODY_CAP 5, CMD_STR_MAX 3, NOTICE_STR_MAX 4 (00_scope.md R7). -/
def heldSmall (h : Byte) (body : List Byte) (ulen : Nat) : State :=
  { held h body ulen with cfg := ⟨3⟩ }

/-- A radio that answers with this status token and these received bytes. -/
def answer (token : Nat) (received : Received) : RadioReply :=
  .answers ⟨⟨token⟩, ⟨token⟩, ⟨token⟩, received⟩

/-- A state whose next radio calls are answered so. -/
def hears (s : State) (r : List RadioReply) : State := { s with radioIn := r }

/-- Status, value, bytes and cause value of a completed operation. -/
def reports : Result → Option (Nat × Nat × List Byte × Int)
  | .next t => some (t.resp.status.toNat, t.resp.value.toNat, t.resp.bytes, t.resp.info)
  | _ => none

/-- Header, used length and the first body bytes after a completed operation. -/
def frame (n : Nat) : Result → Option (Byte × Nat × List (Option Byte))
  | .next t => some (t.hdr, t.ulen, (List.range n).map t.body)
  | _ => none

/-- The radio calls made and the radio's answer as reported. -/
def air : Result → Option (List RadioCall × RStat)
  | .next t => some (t.radioOut, t.resp.rstat)
  | _ => none

/-! ## WellFormed: the one ill-formed term, and its neighbour -/

theorem test_wellFormed_reserved_row :
    (Instr.hdrTagReserved 3 true false 0).wellFormed = false ∧
    (Instr.hdrTagReserved 0 false false 7).wellFormed = false ∧
    (Instr.hdrTagReserved 4 false false 0).wellFormed = true ∧
    (Instr.hdrTagReserved 7 true true 7).wellFormed = true := by decide

/-! ## Decoding: every row by a word written out from 30_encoding.md R61, R63, R66 -/

theorem test_decode_frameBuffer :
    decoded 0x0000000000000001#64 [] = some (.fbInit) ∧
    decoded 0x0000000000000B02#64 [] = some (.fbSetType 3) ∧
    decoded 0x0000000000000003#64 [] = some (.fbGetType) ∧
    decoded 0x0000000000000304#64 [] = some (.fbSetFlag .fragmented true) ∧
    decoded 0x0000000000000104#64 [] = some (.fbSetFlag .responseRequested true) ∧
    decoded 0x0000000000000205#64 [] = some (.fbGetFlag .fragmented) ∧
    decoded 0x00000000FFFF0006#64 [] = some (.fbBodyRead 65535) ∧
    decoded 0x0000000000EE7E07#64 [] = some (.fbBodyWrite 238 0x7E) ∧
    decoded 0x0000000000F00008#64 [] = some (.fbResetLength 240) ∧
    decoded 0x0000000000000009#64 [] = some (.fbWireLength) := by decide

theorem test_decode_data :
    decoded 0x0000000000000010#64 [] = some (.dataInit) ∧
    decoded 0x0000000000000011#64 [0x41#8, 0x00#8] = some (.dataSet [0x41, 0x00]) ∧
    decoded 0x0000000000000012#64 [] = some (.dataGet) ∧
    decoded 0x0000000000000013#64 [] = some (.dataGetLength) ∧
    decoded 0x000000000000FE14#64 [] = some (.dataSetFragmented false) ∧
    decoded 0x0000000000000015#64 [] = some (.dataIsFragmented) := by decide

theorem test_decode_command :
    decoded 0x0000000000000020#64 [] = some (.cmdInit) ∧
    decoded 0x0000000000001021#64 [] = some (.cmdSetCode 0x10) ∧
    decoded 0x0000000000000022#64 [] = some (.cmdGetCode) ∧
    decoded 0x0000000000000023#64 [0x61#8] = some (.cmdSetParam [0x61]) ∧
    decoded 0x0000000000000024#64 [] = some (.cmdGetParam) ∧
    decoded 0x0000000000000025#64 [] = some (.cmdGetParamLength) ∧
    decoded 0x0000000000000026#64 [] = some (.cmdEnableAckRequest) ∧
    decoded 0x0000000000000127#64 [] = some (.cmdSetResponseRequested true) ∧
    decoded 0x0000000000000028#64 [] = some (.cmdIsResponseRequested) := by decide

theorem test_decode_ack :
    decoded 0x0000000000000030#64 [] = some (.ackInit) ∧
    decoded 0x0000000000001031#64 [] = some (.ackSetCode 0x10) ∧
    decoded 0x0000000000000032#64 [] = some (.ackGetCode) ∧
    decoded 0x0000000000000033#64 [0x6F#8, 0x6B#8] = some (.ackSetResponse [0x6F, 0x6B]) ∧
    decoded 0x0000000000000034#64 [] = some (.ackGetResponse) ∧
    decoded 0x0000000000000035#64 [] = some (.ackGetResponseLength) := by decide

theorem test_decode_notice :
    decoded 0x0000000000000040#64 [] = some (.ntcInit) ∧
    decoded 0x0000000000000041#64 [0x68#8, 0x69#8] = some (.ntcSet [0x68, 0x69]) ∧
    decoded 0x0000000000000042#64 [] = some (.ntcGet) ∧
    decoded 0x0000000000000043#64 [] = some (.ntcGetLength) := by decide

theorem test_decode_dispatch :
    decoded 0x0000000000000050#64 [] = some (.pktResolve) := by decide

theorem test_decode_framer :
    decoded 0x00000002ABCD0060#64 [] = some (.txSend 0xABCD 0x0002) ∧
    decoded 0x0000000112340161#64 [0x68#8] = some (.txSendData 0x1234 0x0001 true [0x68]) ∧
    decoded 0x0000000112344262#64 [] = some (.txSendCommand 0x1234 0x0001 0x42 []) ∧
    decoded 0x0000000112341063#64 [0x73#8] = some (.txSendCommandWithAck 0x1234 0x0001 0x10 [0x73]) ∧
    decoded 0x0000000112341064#64 [0x6F#8] = some (.txSendAck 0x1234 0x0001 0x10 [0x6F]) ∧
    decoded 0x0000FFFF12340065#64 [0x41#8] = some (.txSendNotice 0x1234 0xFFFF [0x41]) ∧
    decoded 0x0000000000000066#64 [] = some (.rxListen) := by decide

theorem test_decode_radio :
    decoded 0x0000000000000070#64 [] = some (.radioInit) ∧
    decoded 0x00140064ABCD2471#64 [] = some (.radioBegin 36 0xABCD 100 20) ∧
    decoded 0x0000000000000072#64 [] = some (.radioEnd) ∧
    decoded 0x0000000000000073#64 [] = some (.radioRxEnable) ∧
    decoded 0x0000000000000074#64 [] = some (.radioRxDisable) ∧
    decoded 0x0000000000000075#64 [] = some (.radioGetSendMode) ∧
    decoded 0x0003000000000676#64 [] = some (.radioSetSendMode 6 3) ∧
    decoded 0x0000000000000177#64 [] = some (.radioSetAckReq true) ∧
    decoded 0x0000000000000078#64 [] = some (.radioSetBroadcastEnb false) ∧
    decoded 0x0000000000000179#64 [] = some (.radioSetPromiscuous true) ∧
    decoded 0x000000000000007A#64 [] = some (.radioGetMyAddress) := by decide
theorem test_decode_header_rows :
    decodeHeader 0x00#8 = .hdrTagData false false 0 ∧
    decodeHeader 0x09#8 = .hdrTagCommand true false 0 ∧
    decodeHeader 0x12#8 = .hdrTagAck false true 0 ∧
    decodeHeader 0xFB#8 = .hdrTagNotice true true 7 ∧
    decodeHeader 0x04#8 = .hdrTagReserved 4 false false 0 ∧
    decodeHeader 0xE5#8 = .hdrTagReserved 5 false false 7 := by decide

/-- W11. -/
theorem test_encode_header_rows :
    packHeader 1 true false 0 = 0x09#8 ∧ packHeader 0 false true 0 = 0x10#8 ∧
    packHeader 3 true true 0 = 0x1B#8 := by decide

/-- V-DEC. -/
theorem test_decode_illegal_words :
    illegal 0x0000000000000000#64 = some 0x00 ∧ illegal 0x000000000000000A#64 = some 0x0A ∧
    illegal 0x000000000000000F#64 = some 0x0F ∧ illegal 0x0000000000000016#64 = some 0x16 ∧
    illegal 0x0000000000000029#64 = some 0x29 ∧ illegal 0x0000000000000036#64 = some 0x36 ∧
    illegal 0x0000000000000044#64 = some 0x44 ∧ illegal 0x0000000000000051#64 = some 0x51 ∧
    illegal 0x0000000000000067#64 = some 0x67 ∧ illegal 0x000000000000007B#64 = some 0x7B ∧
    illegal 0x0000000000000080#64 = some 0x80 ∧ illegal 0x00000000000000FF#64 = some 0xFF ∧
    illegal 0x0100000000000001#64 = some 0x01 ∧ illegal 0xFF00000000000050#64 = some 0xFF ∧
    illegal 0xFFFFFFFFFFFF0003#64 = some 0xFF ∧ illegal 0x00FFFFFFFFFF0003#64 = none := by decide

/-- 30_encoding.md R70, its examples by field name. -/
theorem test_assembly :
    assembly (.fbBodyWrite 3 0x41) = "FB_BODY_WRITE A=65, P=3" ∧ assembly .fbInit = "FB_INIT" := by
  decide

theorem test_decodeTableWord :
    decodeTableWord 64 0x0000000000000B02 = some (.fbSetType 3) ∧
    decodeTableWord 8 0xE5 = some (.hdrTagReserved 5 false false 7) ∧
    decodeTableWord 64 0x0000000000000000 = none := by decide

/-! ## One step of each instruction -/

/-- V-FB 1, 2. -/
theorem test_fbInit : frame 2 (exec .fbInit (held 0x19 [0x41, 0x42] 8)) =
    some (0x00, 0, [some 0x41, some 0x42]) := by decide

theorem test_fbWireLength : reports (exec .fbWireLength (held 0x00 [] 239)) =
    some (0, 240, [], 0) := by decide

/-- V-FB 13. -/
theorem test_fbSetType : frame 0 (exec (.fbSetType 0) (held 0xF3 [] 0)) = some (0xF0, 0, []) := by decide

/-- V-FB 5. -/
theorem test_fbGetType : reports (exec .fbGetType (held 0x1D [] 0)) = some (0, 5, [], 0) := by decide

/-- V-FB 11, 12. -/
theorem test_fbSetFlag :
    frame 0 (exec (.fbSetFlag .responseRequested false) (held 0x19 [] 0)) = some (0x11, 0, []) ∧
    frame 0 (exec (.fbSetFlag .fragmented true) (held 0xE3 [] 0)) = some (0xF3, 0, []) := by decide

/-- V-FB 6, 8. -/
theorem test_fbGetFlag :
    reports (exec (.fbGetFlag .fragmented) (held 0x19 [] 0)) = some (0, 1, [], 0) ∧
    reports (exec (.fbGetFlag .responseRequested) (held 0x11 [] 0)) = some (0, 0, [], 0) := by decide

/-- V-FB 17, and a held byte. -/
theorem test_fbBodyRead :
    reports (exec (.fbBodyRead 65535) (held 0x00 [] 0)) = some (7, 0, [], 65535) ∧
    reports (exec (.fbBodyRead 1) (held 0x00 [0x41, 0x7E] 0)) = some (0, 0x7E, [], 0) := by decide

/-- V-FB 16, and 14 with index 1. -/
theorem test_fbBodyWrite :
    reports (exec (.fbBodyWrite 239 1) (held 0x00 [] 0)) = some (7, 0, [], 239) ∧
    frame 3 (exec (.fbBodyWrite 1 0x7E) (held 0x02 [] 0)) =
      some (0x02, 0, [none, some 0x7E, none]) := by decide

/-- V-FB 20, 22. -/
theorem test_fbResetLength :
    frame 0 (exec (.fbResetLength 239) (held 0x00 [] 0)) = some (0x00, 239, []) ∧
    reports (exec (.fbResetLength 240) (held 0x00 [] 239)) = some (3, 0, [], 240) := by decide

/-- V-DATA 1. -/
theorem test_dataInit : frame 0 (exec .dataInit (held 0x1B [] 5)) = some (0x00, 0, []) := by decide

/-- V-DATA 5, and the cut at the capacity (8) with BODY_CAP 5. -/
theorem test_dataSet :
    frame 4 (exec (.dataSet [0x00, 0x01, 0x00]) (held 0x00 [] 0)) =
      some (0x00, 3, [some 0x00, some 0x01, some 0x00, none]) ∧
    frame 5 (exec (.dataSet (List.replicate 6 0x41)) (heldSmall 0x00 [] 0)) =
      some (0x00, 5, List.replicate 5 (some 0x41)) := by decide

/-- V-DATA 13. -/
theorem test_dataSet_mismatch :
    reports (exec (.dataSet [0x78]) (held 0x01 [] 0)) = some (4, 0, [], 1) := by decide

/-- V-DATA 3. -/
theorem test_dataGet : reports (exec .dataGet (held 0x00 [0x41, 0x42, 0x43, 0x44] 3)) =
    some (0, 3, [0x41, 0x42, 0x43], 0) := by decide

/-- V-DATA 4. -/
theorem test_dataGetLength : reports (exec .dataGetLength (held 0x00 [] 3)) =
    some (0, 3, [], 0) := by decide

/-- V-DATA 10, 12. -/
theorem test_dataSetFragmented :
    frame 0 (exec (.dataSetFragmented true) (held 0x00 [] 0)) = some (0x10, 0, []) ∧
    frame 0 (exec (.dataSetFragmented false) (held 0x10 [] 0)) = some (0x00, 0, []) := by decide

/-- V-DATA 11. -/
theorem test_dataIsFragmented : reports (exec .dataIsFragmented (held 0x10 [] 0)) =
    some (0, 1, [], 0) := by decide

/-- V-CMD 1. -/
theorem test_cmdInit : frame 0 (exec .cmdInit (held 0xFF [] 9)) = some (0x01, 0, []) := by decide

/-- V-CMD 4, 9. -/
theorem test_cmdSetCode :
    frame 1 (exec (.cmdSetCode 0x10) (held 0x01 [] 0)) = some (0x01, 1, [some 0x10]) ∧
    frame 2 (exec (.cmdSetCode 0x11) (held 0x01 [0x10, 0x73] 8)) =
      some (0x01, 8, [some 0x11, some 0x73]) := by decide

/-- V-CMD 2, 5. -/
theorem test_cmdGetCode :
    reports (exec .cmdGetCode (held 0x01 [0x10] 0)) = some (6, 0, [], 0) ∧
    reports (exec .cmdGetCode (held 0x01 [0x10] 1)) = some (0, 0x10, [], 0) := by decide

/-- V-CMD 10. -/
theorem test_cmdSetParam :
    frame 5 (exec (.cmdSetParam [0x61, 0x62, 0x00, 0x63, 0x64]) (held 0x01 [0x11, 1, 2, 3, 4] 8)) =
      some (0x01, 4, [some 0x11, some 0x61, some 0x62, some 0x00, some 4]) := by decide

/-- 43_command.md R143 with CMD_STR_MAX 3. -/
theorem test_cmdSetParam_cut :
    frame 5 (exec (.cmdSetParam (List.replicate 9 0x42)) (heldSmall 0x01 [0x11] 1)) =
      some (0x01, 5, [some 0x11, some 0x42, some 0x42, some 0x42, some 0x00]) ∧
    reports (exec (.cmdSetParam (List.replicate 9 0x42)) (heldSmall 0x01 [0x11] 1)) =
      some (0, 3, [], 0) := by decide

/-- V-CMD 6, and a parameter that ends before `ulen`. -/
theorem test_cmdGetParam :
    reports (exec .cmdGetParam (held 0x01 [0x10] 1)) = some (5, 0, [], 1) ∧
    reports (exec .cmdGetParam (held 0x01 [0x10, 0x41, 0x00, 0x42] 4)) =
      some (0, 1, [0x41], 0) := by decide

/-- V-CMD 3, and the NUL just past `ulen`. -/
theorem test_cmdGetParamLength :
    reports (exec .cmdGetParamLength (held 0x01 [] 0)) = some (5, 0, [], 0) ∧
    reports (exec .cmdGetParamLength (held 0x01 [0x10, 0x41, 0x00] 2)) = some (5, 0, [], 2) := by decide

/-- V-CMD 14, 18. -/
theorem test_cmdEnableAckRequest :
    frame 0 (exec .cmdEnableAckRequest (held 0x01 [] 0)) = some (0x09, 0, []) ∧
    reports (exec .cmdEnableAckRequest (held 0x00 [] 0)) = some (4, 0, [], 0) := by decide

/-- V-CMD 16. -/
theorem test_cmdSetResponseRequested :
    frame 0 (exec (.cmdSetResponseRequested false) (held 0x09 [] 0)) = some (0x01, 0, []) := by decide

/-- V-CMD 15. -/
theorem test_cmdIsResponseRequested :
    reports (exec .cmdIsResponseRequested (held 0x09 [] 0)) = some (0, 1, [], 0) := by decide

/-- V-ACK 1. -/
theorem test_ackInit : frame 0 (exec .ackInit (held 0x1F [] 3)) = some (0x02, 0, []) := by decide

/-- V-ACK 3. -/
theorem test_ackSetCode :
    frame 1 (exec (.ackSetCode 0x10) (held 0x02 [] 0)) = some (0x02, 1, [some 0x10]) := by decide

/-- V-ACK 2, 7. -/
theorem test_ackGetCode :
    reports (exec .ackGetCode (held 0x02 [] 0)) = some (6, 0, [], 0) ∧
    reports (exec .ackGetCode (held 0x02 [0x10, 0x6F, 0x6B, 0x00] 4)) = some (0, 0x10, [], 0) := by
  decide

/-- V-ACK 4. -/
theorem test_ackSetResponse :
    frame 5 (exec (.ackSetResponse [0x6F, 0x6B]) (held 0x02 [0x10] 1)) =
      some (0x02, 4, [some 0x10, some 0x6F, some 0x6B, some 0x00, none]) := by decide

/-- V-ACK 5. -/
theorem test_ackGetResponse :
    reports (exec .ackGetResponse (held 0x02 [0x10, 0x6F, 0x6B, 0x00] 4)) =
      some (0, 2, [0x6F, 0x6B], 0) := by decide

/-- V-ACK 6, V-NTC 9. -/
theorem test_ackGetResponseLength :
    reports (exec .ackGetResponseLength (held 0x02 [0x10, 0x6F, 0x6B, 0x00] 4)) =
      some (0, 2, [], 0) ∧
    reports (exec .ackGetResponseLength (held 0x03 [] 0)) = some (4, 0, [], 3) := by decide

/-- V-NTC 1. -/
theorem test_ntcInit : frame 0 (exec .ntcInit (held 0x1D [] 3)) = some (0x03, 0, []) := by decide

/-- V-NTC 3, and 45_notice.md R181 with NOTICE_STR_MAX 4. -/
theorem test_ntcSet :
    frame 4 (exec (.ntcSet [0x68, 0x69]) (held 0x03 [] 0)) =
      some (0x03, 3, [some 0x68, some 0x69, some 0x00, none]) ∧
    frame 5 (exec (.ntcSet (List.replicate 9 0x41)) (heldSmall 0x03 [] 0)) =
      some (0x03, 5, [some 0x41, some 0x41, some 0x41, some 0x41, some 0x00]) := by decide

/-- V-NTC 2, 4. -/
theorem test_ntcGet :
    reports (exec .ntcGet (held 0x03 [] 0)) = some (5, 0, [], 0) ∧
    reports (exec .ntcGet (held 0x03 [0x68, 0x69, 0x00] 3)) = some (0, 2, [0x68, 0x69], 0) := by decide

/-- V-RX 12. -/
theorem test_ntcGetLength :
    reports (exec .ntcGetLength (held 0x03 [0x41, 0x42] 2)) = some (5, 0, [], 2) ∧
    reports (exec .ntcGetLength (held 0x03 [0x00, 0x42] 2)) = some (0, 0, [], 0) := by decide

/-- V-DISP 4, 9 and 8. -/
theorem test_pktResolve :
    reports (exec .pktResolve (held 0x1B [] 0)) = some (0, 3, [], 0) ∧
    reports (exec .pktResolve (held 0xE1 [] 0)) = some (0, 1, [], 0) ∧
    reports (exec .pktResolve (held 0x1F [] 0)) = some (2, 0, [], 7) :=
  ⟨by decide, by decide, by decide⟩

/-- V-DISP 3 and 6, as the header-tag rows. -/
theorem test_hdrTag_rows :
    reports (exec (.hdrTagData true false 0) State.reset) = some (0, 0, [], 0) ∧
    reports (exec (.hdrTagCommand true false 0) State.reset) = some (0, 1, [], 0) ∧
    reports (exec (.hdrTagAck true true 0) State.reset) = some (0, 2, [], 0) ∧
    reports (exec (.hdrTagNotice true false 0) State.reset) = some (0, 3, [], 0) ∧
    reports (exec (.hdrTagReserved 5 true true 0) State.reset) = some (2, 0, [], 5) :=
  ⟨by decide, by decide, by decide, by decide, by decide⟩

/-- V-TX 7. -/
theorem test_txSend :
    air (exec (.txSend 0xABCD 0x0002) (hears (held 0x07 [0x10, 0x73, 0x00] 3) [answer 7 default])) =
      some ([.send 0xABCD 0x0002 [0x07, 0x10, 0x73, 0x00] 4], .status ⟨7⟩) := by decide

/-- V-TX 2. -/
theorem test_txSendData :
    air (exec (.txSendData 0x1234 0x0001 true [0x68, 0x69]) (hears (held 0x1B [] 9) [answer 2 default])) =
      some ([.send 0x1234 0x0001 [0x10, 0x68, 0x69] 3], .status ⟨2⟩) := by decide

/-- W2 and V-TX 3 with DATA_CAP 5: cut sets FRAG, exactly full does not. -/
theorem test_txSendData_cut :
    frame 0 (exec (.txSendData 1 2 false (List.replicate 6 0x55)) (hears (heldSmall 0x00 [] 0) [answer 2 default])) =
      some (0x10, 5, []) ∧
    frame 0 (exec (.txSendData 1 2 false (List.replicate 5 0x55)) (hears (heldSmall 0x00 [] 0) [answer 2 default])) =
      some (0x00, 5, []) := by decide

/-- V-TX 1. -/
theorem test_txSendCommand :
    air (exec (.txSendCommand 0x1234 0x0001 0x42 []) (hears (held 0x00 [] 0) [answer 1 default])) =
      some ([.send 0x1234 0x0001 [0x01, 0x42, 0x00] 3], .status ⟨1⟩) := by decide

/-- W8. -/
theorem test_txSendCommandWithAck :
    air (exec (.txSendCommandWithAck 0x1234 0x0001 0x10 [0x73, 0x74, 0x61, 0x74, 0x75, 0x73])
        (hears (held 0x00 [] 0) [answer 1 default])) =
      some ([.send 0x1234 0x0001 [0x09, 0x10, 0x73, 0x74, 0x61, 0x74, 0x75, 0x73, 0x00] 9],
        .status ⟨1⟩) := by decide

/-- V-TX 5. -/
theorem test_txSendAck :
    air (exec (.txSendAck 0x1234 0x0001 0x10 [0x6F, 0x6B]) (hears (held 0x00 [] 0) [answer 5 default])) =
      some ([.send 0x1234 0x0001 [0x02, 0x10, 0x6F, 0x6B, 0x00] 5], .status ⟨5⟩) := by decide

/-- W9 with NOTICE_STR_MAX 4. -/
theorem test_txSendNotice :
    air (exec (.txSendNotice 0x1234 0xFFFF (List.replicate 9 0x41)) (hears (heldSmall 0x00 [] 0) [answer 4 default])) =
      some ([.send 0x1234 0xFFFF [0x03, 0x41, 0x41, 0x41, 0x41, 0x00] 6], .status ⟨4⟩) ∧
    reports (exec (.txSendNotice 0x1234 0xFFFF (List.replicate 9 0x41)) (hears (heldSmall 0x00 [] 0) [answer 4 default])) =
      some (0, 4, [], 0) := by decide

/-- V-RX 5, with what was held under it. -/
theorem test_rxListen :
    frame 4 (exec .rxListen (hears (held 0x02 [9, 9, 9, 9] 0) [answer 0 (.frame 0xFD [1, 2, 3])])) =
      some (0xFD, 3, [some 1, some 2, some 3, some 9]) ∧
    air (exec .rxListen (hears (held 0x02 [] 0) [answer 0 (.frame 0xFD [1, 2, 3])])) =
      some ([.readData 240], .none) := by decide

/-- V-RX 3, and 4 with FRAME_MAX 6. -/
theorem test_rxListen_turned_away :
    reports (exec .rxListen (hears (held 0x02 [] 0) [answer 0 (.nothing 1)])) =
      some (1, 0, [], -1) ∧
    reports (exec .rxListen (hears (heldSmall 0x02 [] 0) [answer 0 (.frame 1 (List.replicate 6 0))])) =
      some (9, 0, [], 7) := by decide

/-- V-RADIO. -/
theorem test_radio_status_operations :
    air (exec .radioInit (hears State.reset [answer 3 default])) = some ([.init], .status ⟨3⟩) ∧
    air (exec (.radioBegin 36 0xABCD 100 20) (hears State.reset [answer 3 default])) =
      some ([.begin 36 0xABCD 100 20], .status ⟨3⟩) ∧
    air (exec .radioEnd (hears State.reset [answer 3 default])) = some ([.close], .status ⟨3⟩) ∧
    air (exec .radioRxEnable (hears State.reset [answer 3 default])) =
      some ([.rxEnable], .status ⟨3⟩) ∧
    air (exec .radioRxDisable (hears State.reset [answer 3 default])) =
      some ([.rxDisable], .status ⟨3⟩) := by decide

/-- V-RADIO. -/
theorem test_radio_mode_operations :
    air (exec .radioGetSendMode (hears State.reset [answer 3 default])) =
      some ([.getSendMode], .mode ⟨3⟩) ∧
    air (exec (.radioSetSendMode 6 3) (hears State.reset [answer 3 default])) =
      some ([.setSendMode 6 3], .status ⟨3⟩) ∧
    air (exec (.radioSetAckReq true) (hears State.reset [answer 3 default])) =
      some ([.setAckReq true], .status ⟨3⟩) ∧
    air (exec (.radioSetBroadcastEnb false) (hears State.reset [answer 3 default])) =
      some ([.setBroadcastEnb false], .status ⟨3⟩) ∧
    air (exec (.radioSetPromiscuous true) (hears State.reset [answer 3 default])) =
      some ([.setPromiscuous true], .status ⟨3⟩) ∧
    air (exec .radioGetMyAddress (hears State.reset [answer 3 default])) =
      some ([.getMyAddress], .address ⟨3⟩) := by decide

/-! ## The step -/

/-- V-DEC, first row: an illegal word on a held Notice frame. -/
theorem test_step_illegal :
    reports (step { held 0x03 [] 0 with port := [.command ⟨0x0000000000000000#64, []⟩] }) =
      some (8, 0, [], 0) ∧
    frame 0 (step { held 0x03 [] 0 with port := [.command ⟨0x0100000000000001#64, []⟩] }) =
      some (0x03, 0, []) := by decide

/-- 70_reset_and_hazards.md R330. -/
theorem test_step_reset :
    frame 1 (step { held 0x1B [0x41] 1 with port := [.reset] }) = some (0x00, 0, [none]) := by decide

/-- A table word runs as the first instruction after reset. -/
theorem test_withFetchWord :
    frame 0 (step (State.reset.withFetchWord 64 0x0000000000000502)) = some (0x05, 0, []) ∧
    reports (step (State.reset.withFetchWord 8 0x1D)) = some (2, 0, [], 5) := by decide

/-! ## Witnesses: the hypotheses of every statement are met, at the boundary values of each clause -/

/-- CstrIsThePrefixBeforeTheFirstNul. -/
theorem witness_no_nul : nul ∉ [0x73#8, 0xFF#8] ∧ nul ∉ ([] : List Byte) := by decide

/-- ResetEventRestoresTheEmptyFrame, StepRunsTheDecodedCommand. -/
theorem witness_port :
    { State.reset with port := [.reset] }.port = .reset :: [] ∧
    { State.reset with port := [.command ⟨0x01#64, []⟩] }.port = .command ⟨0x01#64, []⟩ :: [] ∧
    (decodeCommand ⟨0x01#64, []⟩).toOption = some .fbInit ∧ State.reset.port = [] := by decide

/-- PlacedTableWordRunsNext, its two clauses. -/
theorem witness_table_words :
    decodeTableWord 64 0x0000000000000001 = some .fbInit ∧
    decodeTableWord 64 0x00FFFFFFFFFFFF7A = some .radioGetMyAddress ∧
    decodeTableWord 8 0 = some (.hdrTagData false false 0) ∧
    decodeTableWord 8 255 = some (.hdrTagReserved 7 true true 7) := by decide

/-- DecodeOfEncodeIsTheInstruction. -/
theorem witness_wellFormed :
    Instr.fbInit.wellFormed = true ∧ (Instr.hdrTagReserved 4 true false 0).wellFormed = true := by
  decide

/-- UnreadFieldsTakeNoPart: FB_SET_TYPE reads `A` alone, so `P`, `Q`, `R` and `S` may differ. -/
theorem witness_unread_fields :
    (⟨0x0000000000000502#64, []⟩ : Command).op = (⟨0x00FFFFFFFFFF0502#64, [0x41#8]⟩ : Command).op ∧
    (⟨0x0000000000000502#64, []⟩ : Command).reserved =
      (⟨0x00FFFFFFFFFF0502#64, [0x41#8]⟩ : Command).reserved ∧
    decodeRow ⟨0x0000000000000502#64, []⟩ = some (.fbSetType 5) ∧
    ∀ o ∈ operands (.fbSetType 5),
      SameField ⟨0x0000000000000502#64, []⟩ ⟨0x00FFFFFFFFFF0502#64, [0x41#8]⟩ o := by
  refine ⟨by decide, by decide, by decide, fun o ho => ?_⟩
  rw [List.mem_singleton.1 ho]
  show (⟨0x0000000000000502#64, []⟩ : Command).a = (⟨0x00FFFFFFFFFF0502#64, [0x41#8]⟩ : Command).a
  decide

/-- IllegalWordsRaiseIllegalOp, first clause: both ends of every range of 30_encoding.md R68. -/
theorem witness_unassigned :
    ∀ n ∈ [0x00, 0x0A, 0x0F, 0x16, 0x1F, 0x29, 0x2F, 0x36, 0x3F, 0x44, 0x4F, 0x51, 0x5F, 0x67, 0x6F,
      0x7B, 0xFF], Unassigned n := by
  unfold Unassigned; decide

/-- IllegalWordsRaiseIllegalOp, second clause: the neighbours of every range are assigned, and a word has a
nonzero reserved byte. -/
theorem witness_assigned :
    (∀ n ∈ [0x01, 0x09, 0x10, 0x15, 0x20, 0x28, 0x30, 0x35, 0x40, 0x43, 0x50, 0x60, 0x66, 0x70, 0x7A],
      ¬ Unassigned n) ∧
    (⟨0x0100000000000001#64, []⟩ : Command).reserved ≠ 0x00#8 ∧
    (⟨0xFF0000000000007A#64, []⟩ : Command).reserved ≠ 0x00#8 := by
  unfold Unassigned; decide

/-- HeaderByteDecodesByItsTag, its five clauses. -/
theorem witness_header_classes :
    0xF8#8 &&& 0x07#8 = 0x00#8 ∧ 0x09#8 &&& 0x07#8 = 0x01#8 ∧ 0x12#8 &&& 0x07#8 = 0x02#8 ∧
    0xFB#8 &&& 0x07#8 = 0x03#8 ∧ 0x04#8 &&& 0x04#8 = 0x04#8 ∧ 0xFF#8 &&& 0x04#8 = 0x04#8 := by decide

/-- DecodesTo, in every statement of an operation: a word of that `OP` with the reserved byte zero. -/
theorem witness_decodesTo (op : Byte) :
    (⟨packWord op 0 0 0 0, []⟩ : Command).op = op ∧
    (⟨packWord op 0 0 0 0, []⟩ : Command).reserved = 0x00#8 := ⟨by simp, by simp⟩

/-- RefusesOtherTags, in every codec statement, and CodecAccessorsCheckTheTag: a frame of another tag. -/
theorem witness_other_tag :
    (held 0x1D [] 0).type ≠ 0 ∧ (held 0x1D [] 0).type ≠ 1 ∧ (held 0x1D [] 0).type ≠ 2 ∧
    (held 0x1D [] 0).type ≠ 3 ∧ accessorTag .dataGet = some 0 ∧ accessorTag (.ntcSet []) = some 3 := by
  decide

/-- The codec statements: a frame of the tag, empty, and full to BODY_CAP. -/
theorem witness_own_tag :
    (held 0xF8 [] 0).type = 0 ∧ (held 0x01 [] 0).type = 1 ∧ (held 0x0A [] 0).type = 2 ∧
    (held 0x1B [] 0).type = 3 ∧ (held 0x1B [] 0).ulen ≤ (held 0x1B [] 0).cfg.bodyCap ∧
    (held 0x1B [] 239).ulen ≤ (held 0x1B [] 239).cfg.bodyCap := by decide

/-- GetCodeReadsTheFirstBodyByte, its two clauses, with a held code byte and without. -/
theorem witness_code_byte :
    (held 0x01 [] 0).ulen = 0 ∧ 1 ≤ (held 0x01 [0x10] 1).ulen ∧
    (held 0x01 [0x10] 1).body 0 = some 0x10 ∧ (held 0x01 [] 1).body 0 = none := by decide

/-- FbBodyReadIsBoundedByCapacity, FbBodyWriteStoresOneByte, FbResetLengthIsBoundedByCapacity: both sides
of the bound, and a held byte. -/
theorem witness_bounds :
    State.reset.cfg.bodyCap ≤ (239 : Word16).toNat ∧ State.reset.cfg.bodyCap ≤ (65535 : Word16).toNat ∧
    (238 : Word16).toNat < State.reset.cfg.bodyCap ∧ (0 : Word16).toNat < State.reset.cfg.bodyCap ∧
    State.reset.cfg.bodyCap < (240 : Word16).toNat ∧ (239 : Word16).toNat ≤ State.reset.cfg.bodyCap ∧
    (held 0x00 [0x41] 0).body (0 : Word16).toNat = some 0x41 := by decide

/-- PktResolveClassifiesTheTag: the values where its two clauses meet. -/
theorem witness_tags :
    (held 0xFB [] 0).hdr.toNat % 8 < 4 ∧ 4 ≤ (held 0x04 [] 0).hdr.toNat % 8 := by decide

/-- PktResolveRunsTheHeaderRow: another memory with the same tag, and a next state. -/
theorem witness_same_tag :
    headerType ((State.reset.withMem (held 0xF8 [0x41] 1).mem).hdr) = headerType State.reset.hdr ∧
    exec .pktResolve State.reset = .next (State.reset.withResp (.done 0)) := ⟨by decide, rfl⟩

/-- TxSendHandsTheFrameToTheRadio and the other statements with a radio that answers: none scripted, and
one answer scripted. -/
theorem witness_radio_speaks :
    RadioSpeaks State.reset ∧ RadioSpeaks (hears State.reset [answer 1 default, .silent]) := by
  unfold RadioSpeaks; decide

/-- RxListenCommitsOnlyAGoodReceive: an answer for each clause, at its boundary values for FRAME_MAX 240. -/
theorem witness_receives :
    (Received.nothing 0).length ≤ 0 ∧ (Received.nothing 1).length ≤ 0 ∧
    1 ≤ (Received.frame 2 []).length ∧ (Received.frame 2 []).length ≤ 240 ∧
    1 ≤ (Received.frame 2 (List.replicate 239 0)).length ∧
    (Received.frame 2 (List.replicate 239 0)).length ≤ 240 ∧
    240 < (Received.frame 2 (List.replicate 240 0)).length := by
  simp only [Received.length, List.length_replicate]
  decide

/-- SilentRadioNeverCompletes. -/
theorem witness_silent :
    callsRadio .rxListen = true ∧ callsRadio (.txSend 0 0) = true ∧
    (hears State.reset [.silent]).radioIn.head? = some .silent ∧
    (hears State.reset [.silent]).ulen ≤ (hears State.reset [.silent]).cfg.bodyCap := by decide

/-- StepKeepsTheInvariant, StepCompletesUnlessTheRadioIsSilent: a state that holds a frame and a command. -/
theorem witness_invariant :
    { held 0x01 [0x10, 0x00] 2 with port := [.command ⟨0x24#64, []⟩] }.Inv ∧
    RadioSpeaks { held 0x01 [0x10, 0x00] 2 with port := [.command ⟨0x24#64, []⟩] } ∧
    reports (step { held 0x01 [0x10, 0x00] 2 with port := [.command ⟨0x24#64, []⟩] }) =
      some (0, 0, [], 0) := by
  unfold RadioSpeaks; decide

/-- ErrorsLeaveTheFrameAsItWas, EachStatusComesFromItsOperations: a step that ends in a status other than
OK. -/
theorem witness_error :
    ∃ t, step { State.reset with port := [.command ⟨0x00#64, []⟩] } = .next t ∧
      t.resp.status ≠ 0x00#8 := ⟨_, rfl, by decide⟩

/-- EachStatusComesFromItsOperations, AtMostOneRadioCallPerOperation, OnlyTheListedOperationsWriteTheFrame,
BodyPastTheUsedLengthIsKept, UnusedHeaderBitsAreNeverInterpreted: an operation that completes, writes none
of the fields, and holds a body byte past `ulen`. -/
theorem witness_reader :
    exec .fbGetType (held 0x03 [0x41] 0) =
      .next ((held 0x03 [0x41] 0).withResp (.done 3)) ∧
    writesWholeHeader .fbGetType = false ∧ writesType .fbGetType = false ∧
    writesRR .fbGetType = false ∧ writesFrag .fbGetType = false ∧
    writesLength .fbGetType = false ∧ writesBody .fbGetType = false ∧
    (held 0x03 [0x41] 0).body 0 ≠ none ∧ (held 0x03 [0x41] 0).ulen ≤ 0 ∧
    (∀ index value, Instr.fbGetType ≠ .fbBodyWrite index value) :=
  ⟨rfl, rfl, rfl, rfl, rfl, rfl, rfl, by decide, by decide, nofun⟩

/-- RepeatingAnOperationLeavesTheSameState: a write, which draws nothing. -/
theorem witness_repeat :
    (held 0x03 [] 0).Inv ∧ callsRadio (.ntcSet [0x68]) = false ∧
    ∃ t u, exec (.ntcSet [0x68]) (held 0x03 [] 0) = .next t ∧ t.draws = (held 0x03 [] 0).draws ∧
      exec (.ntcSet [0x68]) t = .next u :=
  ⟨by decide, rfl, _, _, rfl, rfl, rfl⟩

/-- The block that receives what `s` sent, of the same FRAME_MAX. -/
theorem witness_delivered_command :
    ∃ t r, exec (.txSendCommand 1 2 0x10 [0x68]) (hears State.reset [answer 1 default]) = .next t ∧
      r.cfg = (hears State.reset [answer 1 default]).cfg ∧ Delivers t r [] :=
  ⟨_, hears State.reset [answer 1 (.frame 0x01 [0x10, 0x68, 0x00])], rfl, rfl,
    1, 2, 0x01, [0x10, 0x68, 0x00], 4, _, [], rfl, rfl, rfl⟩

theorem witness_delivered_command_with_ack :
    ∃ t r, exec (.txSendCommandWithAck 1 2 0x10 [0x68]) (hears State.reset [answer 1 default]) = .next t ∧
      r.cfg = (hears State.reset [answer 1 default]).cfg ∧ Delivers t r [] :=
  ⟨_, hears State.reset [answer 1 (.frame 0x09 [0x10, 0x68, 0x00])], rfl, rfl,
    1, 2, 0x09, [0x10, 0x68, 0x00], 4, _, [], rfl, rfl, rfl⟩

theorem witness_delivered_ack :
    ∃ t r, exec (.txSendAck 1 2 0x10 [0x68]) (hears State.reset [answer 1 default]) = .next t ∧
      r.cfg = (hears State.reset [answer 1 default]).cfg ∧ Delivers t r [] :=
  ⟨_, hears State.reset [answer 1 (.frame 0x02 [0x10, 0x68, 0x00])], rfl, rfl,
    1, 2, 0x02, [0x10, 0x68, 0x00], 4, _, [], rfl, rfl, rfl⟩

theorem witness_delivered_notice :
    ∃ t r, exec (.txSendNotice 1 2 [0x68]) (hears State.reset [answer 1 default]) = .next t ∧
      r.cfg = (hears State.reset [answer 1 default]).cfg ∧ Delivers t r [] :=
  ⟨_, hears State.reset [answer 1 (.frame 0x03 [0x68, 0x00])], rfl, rfl,
    1, 2, 0x03, [0x68, 0x00], 3, _, [], rfl, rfl, rfl⟩

theorem witness_delivered_data :
    ∃ t r, exec (.txSendData 1 2 true [0x00]) (hears State.reset [answer 1 default]) = .next t ∧
      r.cfg = (hears State.reset [answer 1 default]).cfg ∧ Delivers t r [] :=
  ⟨_, hears State.reset [answer 1 (.frame 0x10 [0x00])], rfl, rfl,
    1, 2, 0x10, [0x00], 2, _, [], rfl, rfl, rfl⟩

/-- ReceivedFramesAreSentOnUnchanged, at the largest frame. -/
theorem witness_forwarded :
    (hears State.reset [answer 1 (.frame 0xFD (List.replicate 239 7)), answer 2 default]).radioIn =
      .answers ⟨⟨1⟩, ⟨1⟩, ⟨1⟩, .frame 0xFD (List.replicate 239 7)⟩ ::
        .answers ⟨⟨2⟩, ⟨2⟩, ⟨2⟩, default⟩ :: [] ∧
    (List.replicate 239 (7 : Byte)).length + 1 ≤ State.reset.cfg.frameMax :=
  ⟨rfl, by rw [List.length_replicate]; decide⟩

end Sys2Proof.Machine.Tests
end

section
/-! PROOFS of the statements of 00_scope.md: the capacities, `cstr`, the step of a command, and the radio calls of an operation. -/

namespace Sys2Proof.Machine

open Claims

/-! ## The radio calls of an operation (00_scope.md R8) -/

/-- The frame writes of an instruction reach neither the parameter, the command port nor the radio. -/
theorem written_sameOutside (i : Instr) (s : State) : SameOutside s (written i s) := by
  unfold SameOutside
  cases i <;> exact ⟨rfl, rfl, rfl, rfl⟩

/-- The instructions that call the radio are those with a radio use. -/
theorem callsRadio_eq (i : Instr) : callsRadio i = decide (radioUse i ≠ .local) := by
  cases i <;> rfl

/-- The outside after an operation without the radio: as before. -/
theorem Ran.sameOutside {i : Instr} {s t : State} (h : Ran i s t) (hu : radioUse i = .local) :
    SameOutside s t := by
  have hw := written_sameOutside i s
  cases h with
  | raised e info d => exact ⟨rfl, rfl, rfl, rfl⟩
  | done v bytes d => exact hw
  | called c v rs d hc => simp [hu] at hc
  | refused c e info he hr => simp [hu] at hr
  | received c v bytes hn hl hr => simp [hu] at hr

/-- The outside after an operation with a radio use: one call was made and one scripted reply used. -/
theorem Ran.calledOnce {i : Instr} {s t : State} (h : Ran i s t) (hu : radioUse i ≠ .local) :
    t.cfg = s.cfg ∧ t.port = s.port ∧ (∃ c, t.radioOut = s.radioOut ++ [c]) ∧
      t.radioIn = s.radioIn.tail := by
  obtain ⟨hcfg, hport, hin, hout⟩ := written_sameOutside i s
  cases h with
  | raised e info d he hl => exact absurd hl hu
  | done v bytes d hl => exact absurd hl hu
  | called c v rs d => exact ⟨hcfg, hport, ⟨c, by simp [hout]⟩, by simp [hin]⟩
  | refused c => exact ⟨rfl, rfl, ⟨c, rfl⟩, rfl⟩
  | received c => exact ⟨rfl, rfl, ⟨c, rfl⟩, rfl⟩

/-- Settles O45: every next state of `exec` has a shape of `Ran`, and the shapes with a call are those of
the instructions with a radio use. -/
theorem atMostOneRadioCallPerOperation : Obligations.AtMostOneRadioCallPerOperation := by
  intro i s t h
  simp only [callsRadio_eq, decide_eq_true_eq]
  split
  case isTrue hu => exact (exec_next h).calledOnce hu
  case isFalse hu =>
    obtain ⟨hcfg, hport, hin, hout⟩ := (exec_next h).sameOutside (not_not.1 hu)
    exact ⟨hcfg, hport, hout, hin⟩

/-! ## The capacities (00_scope.md R7) -/

/-- Settles O1, by the capacity lemmas; `3 <= FRAME_MAX` keeps every subtraction from borrowing. -/
theorem capacitiesFollowFromFrameMax : Obligations.CapacitiesFollowFromFrameMax := by
  refine ⟨fun c => ?_, rfl, rfl, rfl, rfl, rfl, rfl, rfl⟩
  have hmin := c.three_le_frameMax
  have hbody := c.bodyCap_add_one
  have hregion := c.cmdRegion_add_one
  have hcmd : c.cmdStrMax + 1 = c.cmdRegion := by unfold Config.cmdStrMax; omega
  have hnotice : c.noticeStrMax + 1 = c.bodyCap := by
    unfold Config.noticeStrMax Config.noticeRegion; omega
  exact ⟨hmin, c.frameMax_le, hbody, rfl, by omega, hcmd, rfl, hnotice⟩

/-! ## `cstr` (00_scope.md R12) -/

/-- `cstr` keeps NUL-free text at the front of a string. -/
theorem cstr_append_of_nul_notMem {pre : List Byte} (h : nul ∉ pre) (post : List Byte) :
    cstr (pre ++ post) = pre ++ cstr post :=
  List.takeWhile_append_of_pos fun b hb => by simpa using ne_of_mem_of_not_mem hb h

/-- Settles O2: `cstr` keeps the NUL-free text and stops at the NUL or at the end. -/
theorem cstrIsThePrefixBeforeTheFirstNul : Obligations.CstrIsThePrefixBeforeTheFirstNul := by
  refine ⟨fun pre post h => ?_, fun s h => ?_, by decide⟩
  · rw [cstr_append_of_nul_notMem h]
    exact List.append_nil pre
  · simpa [cstr] using cstr_append_of_nul_notMem h []

/-! ## The step of a command (00_scope.md R8) -/

/-- A step with a command at the head of the port performs it, with the command taken. -/
theorem step_of_command {s : State} {c : Command} {left : List HostEvent}
    (h : s.port = .command c :: left) : step s = performCommand c (s.withPort left) := by
  simp only [step, takeEvent, h]

/-- A step with nothing presented is a wait. -/
theorem step_of_nothing {s : State} (h : s.port = []) : step s = .next s := by
  simp only [step, takeEvent, h]

/-- A legal command runs its row. -/
theorem performCommand_of_ok {c : Command} {i : Instr} (h : decodeCommand c = .ok i) (s : State) :
    performCommand c s = exec i s := by
  simp only [performCommand, h]

/-- Settles O5: the step takes the command and performs it, and a legal command runs its row. -/
theorem stepRunsTheDecodedCommand : Obligations.StepRunsTheDecodedCommand := by
  refine ⟨fun s c left i hport hdec => ?_, fun s hport => step_of_nothing hport⟩
  rw [step_of_command hport, performCommand_of_ok hdec]

end Sys2Proof.Machine
end

section
/-! PROOFS of the statements of 10_state.md: the invariant, reset, who writes the frame, the unused header bits, and a frame sent on. -/

namespace Sys2Proof.Machine

open Claims

/-! ## The invariant (10_state.md R26; 20_memory.md R40, R49; 60_exceptions.md R300) -/

/-- The part of the invariant that speaks of the frame: canonical memory inside the frame address space,
and `ulen <= BODY_CAP`. -/
structure FrameInv (s : State) : Prop where
  wf : s.mem.wf
  within : s.mem.within s.cfg.frameMax
  ulen_le : s.ulen ≤ s.cfg.bodyCap

/-- The invariant is that of the frame and the legality of the response registers. -/
theorem inv_iff {s : State} : s.Inv ↔ FrameInv s ∧ s.resp.Legal :=
  ⟨fun ⟨hwf, hin, hulen, hresp⟩ => ⟨⟨hwf, hin, hulen⟩, hresp⟩,
    fun ⟨⟨hwf, hin, hulen⟩, hresp⟩ => ⟨hwf, hin, hulen, hresp⟩⟩

/-- Every status is one of the table of 60_exceptions.md R300. -/
theorem Status.code_le (e : Status) : e.code.toNat ≤ 0x09 := by
  cases e <;> decide

theorem Status.code_ne_ok {e : Status} (he : e ≠ .ok) : e.code ≠ Status.ok.code := by
  revert he; cases e <;> decide

theorem Resp.done_legal (v : Word16) (bytes : List Byte) (rs : RStat) :
    (Resp.done v bytes rs).Legal :=
  ⟨Status.ok.code_le, fun _ => rfl, fun h => absurd rfl h⟩

theorem Resp.raised_legal {e : Status} (he : e ≠ .ok) (info : Int) : (Resp.raised e info).Legal :=
  ⟨e.code_le, fun h => absurd h (Status.code_ne_ok he), fun _ => ⟨rfl, rfl, rfl⟩⟩

/-- No instruction raises OK. -/
theorem ok_notMem_mayRaise (i : Instr) : Status.ok ∉ mayRaise i := by
  cases i <;> simp [mayRaise]

namespace FrameInv
variable {s : State}

/-- An update that keeps the parameter, the memory and `ulen` keeps the invariant of the frame. -/
theorem congr {t : State} (h : FrameInv s) (hc : t.cfg = s.cfg) (hm : t.mem = s.mem)
    (hu : t.ulen = s.ulen) : FrameInv t :=
  ⟨hm ▸ h.wf, hc ▸ hm ▸ h.within, hc ▸ hu ▸ h.ulen_le⟩

theorem withUlen (h : FrameInv s) {n : Nat} (hn : n ≤ s.cfg.bodyCap) : FrameInv (s.withUlen n) :=
  ⟨h.wf, h.within, hn⟩

theorem setHdr (h : FrameInv s) (b : Byte) : FrameInv (s.setHdr b) :=
  have hmax := s.cfg.three_le_frameMax
  ⟨Memory.write_wf h.wf 0 b, Memory.write_within h.within (by omega) b, h.ulen_le⟩

theorem setBody (h : FrameInv s) {i : Nat} (hi : i < s.cfg.bodyCap) (v : Byte) :
    FrameInv (s.setBody i v) :=
  have hcap := s.cfg.bodyCap_add_one
  ⟨Memory.write_wf h.wf (1 + i) v, Memory.write_within h.within (by omega) v, h.ulen_le⟩

theorem memWrite (h : FrameInv s) {a : Nat} {v : List Byte} (hv : a + v.length ≤ s.cfg.frameMax) :
    FrameInv (s.memWrite a v) :=
  ⟨Memory.writeBytes_wf h.wf a v, Memory.writeBytes_within h.within hv, h.ulen_le⟩

theorem variantInit (h : FrameInv s) (t : BitVec 3) : FrameInv (variantInit t s) :=
  (h.setHdr _).withUlen (Nat.zero_le _)

theorem setCode (h : FrameInv s) (cmd : Byte) : FrameInv (setCode cmd s) := by
  have hmax := s.cfg.three_le_frameMax
  have hcap := s.cfg.bodyCap_add_one
  exact (h.setBody (by omega) cmd).withUlen (max_le h.ulen_le (by simp only [State.setBody_cfg]; omega))

theorem dataStore (h : FrameInv s) (str : List Byte) : FrameInv (dataStore str s) := by
  have hcap := s.cfg.bodyCap_add_one
  have hlen := dataLen_le_bodyCap s.cfg str
  refine (h.memWrite ?_).withUlen hlen
  rw [List.length_take]
  omega

/-- `StrStore` into a region that ends at the end of the body. -/
theorem strStore (h : FrameInv s) {off region : Nat} (hr : off + region = s.cfg.bodyCap)
    (ho : off ≤ 1) (str : List Byte) : FrameInv (strStore off region str s) := by
  have hcap := s.cfg.bodyCap_add_one
  have hlen := storedLen_lt hr ho str
  refine ((h.memWrite ?_).setBody hlen nul).withUlen hlen
  rw [strStore_length]
  omega

theorem buildData (h : FrameInv s) (fragment : Bool) (str : List Byte) :
    FrameInv (buildData fragment str s) :=
  ((h.variantInit 0).dataStore str).setHdr _

theorem buildCode (h : FrameInv s) (t : BitVec 3) (cmd : Byte) (str : List Byte) :
    FrameInv (buildCode t cmd str s) := by
  have hmax := s.cfg.three_le_frameMax
  have hcap := s.cfg.bodyCap_add_one
  have hcode : 0 < (Machine.variantInit t s).cfg.bodyCap := by simp only [variantInit_cfg]; omega
  exact ((h.variantInit t).setBody hcode cmd).strStore s.cfg.cmdRegion_add_one le_rfl str

/-- The frame writes of an instruction keep the invariant of the frame, within the bound that the
instruction checks. -/
theorem written (h : FrameInv s) {i : Instr} (hb : inBounds s i) : FrameInv (written i s) := by
  cases i with
  | fbInit => exact (h.setHdr _).withUlen (Nat.zero_le _)
  | fbSetType | fbSetFlag | dataSetFragmented | cmdEnableAckRequest | cmdSetResponseRequested =>
    exact h.setHdr _
  | fbBodyWrite index value => exact h.setBody hb value
  | fbResetLength n => exact h.withUlen hb
  | dataInit | cmdInit | ackInit | ntcInit => exact h.variantInit _
  | dataSet str => exact h.dataStore str
  | cmdSetCode cmd | ackSetCode cmd => exact h.setCode cmd
  | cmdSetParam str | ackSetResponse str => exact h.strStore s.cfg.cmdRegion_add_one le_rfl str
  | ntcSet str => exact h.strStore s.cfg.noticeRegion_eq (Nat.zero_le _) str
  | txSendData _ _ fragment str => exact h.buildData fragment str
  | txSendCommand _ _ cmd str | txSendAck _ _ cmd str => exact h.buildCode _ cmd str
  | txSendCommandWithAck _ _ cmd str => exact (h.buildCode 1 cmd str).setHdr _
  | txSendNotice _ _ str =>
    exact (h.variantInit 3).strStore s.cfg.noticeRegion_eq (Nat.zero_le _) str
  | _ => exact h

end FrameInv

/-- An instruction that calls the radio checks no operand. -/
theorem inBounds_of_radioUse {i : Instr} (s : State) (hu : radioUse i ≠ .local) : inBounds s i := by
  cases i with
  | fbBodyWrite | fbResetLength => exact absurd rfl hu
  | _ => trivial

/-- Whatever shape its next state has, an instruction keeps the invariant. -/
theorem Ran.inv {i : Instr} {s t : State} (h : Ran i s t) (hs : FrameInv s) : t.Inv := by
  have hraised : ∀ {e}, e ∈ mayRaise i → e ≠ .ok := fun he =>
    ne_of_mem_of_not_mem he (ok_notMem_mayRaise i)
  cases h with
  | raised e info d he => exact inv_iff.2 ⟨hs.congr rfl rfl rfl, Resp.raised_legal (hraised he) info⟩
  | done v bytes d hu hb =>
    exact inv_iff.2 ⟨(hs.written hb).congr rfl rfl rfl, Resp.done_legal v bytes .none⟩
  | called c v rs d hu =>
    have hb : inBounds s i := inBounds_of_radioUse s (by rcases hu with hu | hu <;> simp [hu])
    exact inv_iff.2 ⟨(hs.written hb).congr rfl rfl rfl, Resp.done_legal v [] rs⟩
  | refused c e info he =>
    exact inv_iff.2 ⟨hs.congr rfl rfl rfl, Resp.raised_legal (hraised he) info⟩
  | received c v bytes hn hl =>
    have hcalled : FrameInv (s.called c) := hs.congr rfl rfl rfl
    have hcap := s.cfg.bodyCap_add_one
    have hframe := (hcalled.memWrite (a := 0) (v := bytes) (by simpa using hl)).withUlen
      (n := bytes.length - 1) (by simp only [State.memWrite_cfg, State.called_cfg]; omega)
    exact inv_iff.2 ⟨hframe.congr rfl rfl rfl, Resp.done_legal v [] .none⟩

/-- Performing a command keeps the invariant, whether its word is legal or not. -/
theorem performCommand_inv {c : Command} {s t : State} (hs : FrameInv s)
    (h : performCommand c s = .next t) : t.Inv := by
  unfold performCommand at h
  split at h
  · exact (exec_next h).inv hs
  · rw [raise_next h]
    exact inv_iff.2 ⟨hs.congr rfl rfl rfl, Resp.raised_legal (by decide) _⟩

/-- The reset event meets the invariant from any state (log entries 2 and 14). -/
theorem resetBlock_inv (s : State) : (resetBlock s).Inv :=
  ⟨⟨List.Pairwise.nil, by simp⟩, by simp [Memory.within], Nat.zero_le _,
    Resp.done_legal 0 [] .none⟩

/-- A step with the reset event at the head of the port resets the block. -/
theorem step_of_reset {s : State} {left : List HostEvent} (h : s.port = .reset :: left) :
    step s = .next (resetBlock (s.withPort left)) := by
  simp only [step, takeEvent, h]

/-- Settles O40: the reset state is what the reset event leaves of itself. -/
theorem resetMeetsTheInvariant : Obligations.ResetMeetsTheInvariant :=
  resetBlock_inv State.reset

/-- Settles O41, by the host event that the step takes: nothing, a command or the reset event. -/
theorem stepKeepsTheInvariant : Obligations.StepKeepsTheInvariant := by
  intro s t hs h
  match hport : s.port with
  | [] =>
    rw [step_of_nothing hport] at h
    cases h
    exact hs
  | .command c :: left =>
    rw [step_of_command hport] at h
    have hleft : FrameInv (s.withPort left) := (inv_iff.1 hs).1.congr rfl rfl rfl
    exact performCommand_inv hleft h
  | .reset :: left =>
    rw [step_of_reset hport] at h
    cases h
    exact resetBlock_inv _

/-! ## Reset and the response registers (10_state.md R29, R36) -/

/-- Settles O3: the reset memory lists nothing, and FB_INIT's header write reaches no body byte. -/
theorem resetLeavesAnEmptyFrame : Obligations.ResetLeavesAnEmptyFrame := by
  refine ⟨rfl, rfl, fun i => ?_, rfl, fun s => ⟨_, rfl, ?_, rfl, fun i => ?_⟩⟩
  · simp [State.body, State.reset, Memory.read, Memory.lookup, Memory.unlisted]
  · exact (s.setHdr 0x00).withUlen_hdr 0 ▸ s.setHdr_hdr 0x00
  · exact s.setHdr_body 0x00 i

/-- Settles O49: every meaning ends in `complete` or `raise`, which overwrite the response registers, and
none reads them before. -/
theorem responsesDependOnTheTransactionAlone : Obligations.ResponsesDependOnTheTransactionAlone := by
  intro i s r
  cases i <;> rfl

/-! ## Header bits -/

/-- Two bytes agree under a mask if they agree in the mask's bits. -/
theorem and_eq_and_of_bits {a b m : Byte}
    (h : ∀ j, m.getLsbD j = true → a.getLsbD j = b.getLsbD j) : a &&& m = b &&& m := by
  refine BitVec.eq_of_getLsbD_eq fun j _ => ?_
  cases hm : m.getLsbD j with
  | false => simp [hm]
  | true => simp [hm, h j hm]

/-- FB_SET_TYPE writes bits 2:0 and keeps the others (41_frame_buffer.md R101). -/
theorem putType_getLsbD (h : Byte) (t : BitVec 3) (j : Nat) :
    (putType h t).getLsbD j = if j < 3 then t.getLsbD j else h.getLsbD j := by
  by_cases h8 : j < 8
  · interval_cases j <;> simp [putType]
  · have h3 : ¬ j < 3 := by omega
    simp [BitVec.getLsbD_of_ge _ j (Nat.le_of_not_lt h8), h3]

/-- The flags are bits 3 and 4 (10_state.md R21). -/
theorem flagBit_bounds (f : Flag) : 3 ≤ flagBit f ∧ flagBit f ≤ 4 := by
  cases f <;> decide

/-- A flag write writes the flag's bit and keeps the others (41_frame_buffer.md R103). -/
theorem putFlag_getLsbD (h : Byte) (f : Flag) (v : Bool) (j : Nat) :
    (putFlag h f v).getLsbD j = if j = flagBit f then v else h.getLsbD j := by
  by_cases h8 : j < 8
  · interval_cases j <;> cases f <;> cases v <;> simp [putFlag, flagBit, ofBool]
  · have hbits := flagBit_bounds f
    have hf : j ≠ flagBit f := by omega
    simp [BitVec.getLsbD_of_ge _ j (Nat.le_of_not_lt h8), hf]

/-- Setting bit 3 is the write of RR with 1 (43_command.md R146). -/
theorem or_eq_putFlag (h : Byte) : h ||| 0x08#8 = putFlag h .responseRequested true := by
  refine BitVec.eq_of_getLsbD_eq fun j hj => ?_
  rw [putFlag_getLsbD]
  interval_cases j <;> simp [flagBit]

/-! ## Who writes the frame (10_state.md R21, R22, R25; 20_memory.md R42) -/

/-- The operations that write a flag. -/
def writesFlag : Flag → Instr → Bool
  | .responseRequested => writesRR
  | .fragmented => writesFrag

/-- What an operation that is no writer of the whole header does to it: a writer of TYPE writes TYPE, a
writer of a flag writes that flag, and any other operation writes nothing. -/
theorem written_hdr {i : Instr} (hi : writesWholeHeader i = false) (s : State) :
    (writesType i = true ∧ ∃ tag, (written i s).hdr = putType s.hdr tag) ∨
    (∃ f v, writesFlag f i = true ∧ (written i s).hdr = putFlag s.hdr f v) ∨
    (written i s).hdr = s.hdr := by
  cases i with
  | fbSetType tag => exact .inl ⟨rfl, tag, s.setHdr_hdr _⟩
  | fbSetFlag sel v => exact .inr (.inl ⟨sel, v, by cases sel <;> rfl, s.setHdr_hdr _⟩)
  | dataSetFragmented v => exact .inr (.inl ⟨.fragmented, v, rfl, s.setHdr_hdr _⟩)
  | cmdSetResponseRequested v => exact .inr (.inl ⟨.responseRequested, v, rfl, s.setHdr_hdr _⟩)
  | cmdEnableAckRequest =>
    exact .inr (.inl ⟨.responseRequested, true, rfl, (s.setHdr_hdr _).trans (or_eq_putFlag s.hdr)⟩)
  | fbBodyWrite index value => exact .inr (.inr (s.setBody_hdr index.toNat value))
  | cmdSetCode cmd | ackSetCode cmd => exact .inr (.inr (s.setBody_hdr 0 cmd))
  | dataSet str => exact .inr (.inr (dataStore_hdr str s))
  | cmdSetParam str | ackSetResponse str | ntcSet str => exact .inr (.inr (strStore_hdr _ _ str s))
  | _ => cases hi <;> exact .inr (.inr rfl)

/-- The operations that are no writers of `ulen` keep it. -/
theorem written_ulen {i : Instr} (hi : writesLength i = false) (s : State) :
    (written i s).ulen = s.ulen := by
  cases i <;> cases hi <;> rfl

/-- The operations that are no writers of the body keep it. -/
theorem written_body {i : Instr} (hi : writesBody i = false) (s : State) :
    BodyKept s (written i s) := by
  intro j
  cases i <;> cases hi <;> simp [written]

/-- RX_LISTEN is the only operation that receives. -/
theorem eq_rxListen_of_radioUse {i : Instr} (hu : radioUse i = .receives) : i = .rxListen := by
  cases i <;> cases hu
  rfl

/-- What an operation does to the frame: nothing, its writes (`written`), or the commit of a received
frame, which is RX_LISTEN's (47_framer.md R207). -/
theorem Ran.frame {i : Instr} {s t : State} (h : Ran i s t) :
    (t.mem = s.mem ∧ t.ulen = s.ulen) ∨
    (t.mem = (written i s).mem ∧ t.ulen = (written i s).ulen) ∨
    (i = .rxListen ∧ ∃ bytes : List Byte,
      t.mem = s.mem.writeBytes 0 bytes ∧ t.ulen = bytes.length - 1) := by
  cases h with
  | raised | refused => exact .inl ⟨rfl, rfl⟩
  | done | called => exact .inr (.inl ⟨rfl, rfl⟩)
  | received c v bytes hn hl hu =>
    exact .inr (.inr ⟨eq_rxListen_of_radioUse hu, bytes, rfl, rfl⟩)

/-- States with the same memory have the same header and the same body. -/
theorem State.view_of_mem_eq {s t : State} (h : t.mem = s.mem) : t.hdr = s.hdr ∧ BodyKept s t :=
  ⟨by simp only [State.hdr, h], fun j => by simp only [State.body, h]⟩

/-- An operation that is no writer of the whole header keeps every header bit that is neither a bit of TYPE
which it writes nor a flag which it writes. -/
theorem exec_hdr_getLsbD {i : Instr} {s t : State} (h : exec i s = .next t)
    (hi : writesWholeHeader i = false) (j : Nat) (htype : writesType i = false ∨ 3 ≤ j)
    (hflag : ∀ f, writesFlag f i = false ∨ j ≠ flagBit f) :
    t.hdr.getLsbD j = s.hdr.getLsbD j := by
  rcases (exec_next h).frame with ⟨hm, -⟩ | ⟨hm, -⟩ | ⟨rfl, -⟩
  · rw [(State.view_of_mem_eq hm).1]
  · rw [(State.view_of_mem_eq hm).1]
    rcases written_hdr hi s with ⟨hw, tag, ht⟩ | ⟨f, v, hw, ht⟩ | ht
    · have hj : ¬ j < 3 := by simpa [hw] using htype
      rw [ht, putType_getLsbD, if_neg hj]
    · have hj : j ≠ flagBit f := by simpa [hw] using hflag f
      rw [ht, putFlag_getLsbD, if_neg hj]
    · rw [ht]
  · cases hi

/-- A writer of the whole header writes TYPE. -/
theorem writesType_of_writesWholeHeader {i : Instr} (h : writesWholeHeader i = true) :
    writesType i = true := by
  cases i <;> cases h <;> rfl

/-- A writer of the whole header writes each flag. -/
theorem writesFlag_of_writesWholeHeader {i : Instr} (f : Flag) (h : writesWholeHeader i = true) :
    writesFlag f i = true := by
  cases i <;> cases h <;> cases f <;> rfl

/-- An operation that is no writer of a flag keeps it. -/
theorem exec_flag_kept {i : Instr} {s t : State} (h : exec i s = .next t) {f : Flag}
    (hf : writesFlag f i = false) : t.hdr.getLsbD (flagBit f) = s.hdr.getLsbD (flagBit f) := by
  have hwhole : writesWholeHeader i = false :=
    Bool.eq_false_of_not_eq_true (mt (writesFlag_of_writesWholeHeader f) (by simp [hf]))
  refine exec_hdr_getLsbD h hwhole _ (.inr (flagBit_bounds f).1) fun g => ?_
  by_cases hg : g = f
  · exact .inl (hg ▸ hf)
  · exact .inr (by revert hg; cases f <;> cases g <;> decide)

/-- Settles O47: the header bit by bit, `ulen` and the body by `written`. -/
theorem onlyTheListedOperationsWriteTheFrame : Obligations.OnlyTheListedOperationsWriteTheFrame := by
  intro i s t h
  refine ⟨fun hi => and_eq_and_of_bits fun j hj => ?_, fun hi => and_eq_and_of_bits fun j hj => ?_,
    fun hi => exec_flag_kept h (f := .responseRequested) hi,
    fun hi => exec_flag_kept h (f := .fragmented) hi, fun hi => ?_, fun hi => ?_⟩
  · have h5 : 5 ≤ j := by
      by_contra hlt
      interval_cases j <;> cases hj
    exact exec_hdr_getLsbD h hi j (.inr (by omega)) fun f =>
      .inr (by have hbits := flagBit_bounds f; omega)
  · have h3 : j < 3 := by
      by_contra hge
      have h8 : j < 8 := BitVec.lt_of_getLsbD hj
      interval_cases j <;> cases hj
    have hwhole : writesWholeHeader i = false :=
      Bool.eq_false_of_not_eq_true (mt writesType_of_writesWholeHeader (by simp [hi]))
    exact exec_hdr_getLsbD h hwhole j (.inl hi) fun f =>
      .inr (by have hbits := flagBit_bounds f; omega)
  · rcases (exec_next h).frame with ⟨-, hu⟩ | ⟨-, hu⟩ | ⟨rfl, -⟩
    · exact hu
    · exact hu.trans (written_ulen hi s)
    · cases hi
  · rcases (exec_next h).frame with ⟨hm, -⟩ | ⟨hm, -⟩ | ⟨rfl, -⟩
    · exact (State.view_of_mem_eq hm).2
    · exact fun j => ((State.view_of_mem_eq hm).2 j).trans (written_body hi s j)
    · cases hi

/-! ## What stays in the body (10_state.md R37) -/

/-- Every body byte is as it was, or holds a value below the used length. -/
def FillsBelowUlen (s t : State) : Prop :=
  ∀ j, t.body j = s.body j ∨ (j < t.ulen ∧ t.body j ≠ none)

/-- A later update that keeps the body and `ulen` changes nothing about it. -/
theorem FillsBelowUlen.congr {s t u : State} (h : FillsBelowUlen s t) (hb : BodyKept t u)
    (hu : u.ulen = t.ulen) : FillsBelowUlen s u := fun j => by
  rw [hb j, hu]
  exact h j

theorem fillsBelowUlen_of_bodyKept {s t : State} (h : BodyKept s t) : FillsBelowUlen s t :=
  fun j => .inl (h j)

theorem setCode_fillsBelowUlen (cmd : Byte) (s : State) : FillsBelowUlen s (setCode cmd s) := by
  intro j
  by_cases hj : j = 0
  · subst hj
    exact .inr ⟨by simp [setCode], by simp [setCode]⟩
  · exact .inl (by simp [setCode, hj])

theorem dataStore_fillsBelowUlen (str : List Byte) (s : State) :
    FillsBelowUlen s (dataStore str s) := by
  intro j
  have hlen := dataLen_le s.cfg str
  rw [dataStore_body, dataStore_ulen]
  split
  · exact .inr ⟨‹_›, by simp; omega⟩
  · exact .inl rfl

theorem strStore_fillsBelowUlen (off region : Nat) (str : List Byte) (s : State) :
    FillsBelowUlen s (strStore off region str s) := by
  intro j
  have hlen := storedLen_le region str
  rw [strStore_body, strStore_ulen]
  split
  · exact .inr ⟨by omega, by simp⟩
  · split
    · exact .inr ⟨by omega, by simp; omega⟩
    · exact .inl rfl

theorem buildCode_fillsBelowUlen (t : BitVec 3) (cmd : Byte) (str : List Byte) (s : State) :
    FillsBelowUlen s (buildCode t cmd str s) := by
  intro j
  rcases strStore_fillsBelowUlen 1 s.cfg.cmdRegion str ((variantInit t s).setBody 0 cmd) j with h | h
  · rw [State.setBody_body, variantInit_body] at h
    by_cases hj : j = 0
    · rw [if_pos hj] at h
      exact .inr ⟨by simp [buildCode, hj], by simp [buildCode, h]⟩
    · rw [if_neg hj] at h
      exact .inl h
  · exact .inr h

/-- A store after VariantInit, which keeps the body. -/
theorem FillsBelowUlen.of_variantInit {tag : BitVec 3} {s t : State}
    (h : FillsBelowUlen (variantInit tag s) t) : FillsBelowUlen s t := fun j => by
  rw [← variantInit_body tag s j]
  exact h j

/-- The body writes of every operation but FB_BODY_WRITE fill bytes below the new `ulen`. -/
theorem written_fillsBelowUlen {i : Instr} (hi : ∀ index value, i ≠ .fbBodyWrite index value)
    (s : State) : FillsBelowUlen s (written i s) := by
  cases i with
  | fbBodyWrite index value => exact absurd rfl (hi index value)
  | dataSet str => exact dataStore_fillsBelowUlen str s
  | cmdSetCode cmd | ackSetCode cmd => exact setCode_fillsBelowUlen cmd s
  | cmdSetParam str | ackSetResponse str | ntcSet str => exact strStore_fillsBelowUlen _ _ str s
  | txSendData _ _ fragment str =>
    exact (dataStore_fillsBelowUlen str _).of_variantInit.congr (State.setHdr_body _ _) rfl
  | txSendCommand _ _ cmd str | txSendAck _ _ cmd str => exact buildCode_fillsBelowUlen _ cmd str s
  | txSendCommandWithAck _ _ cmd str =>
    exact (buildCode_fillsBelowUlen 1 cmd str s).congr (State.setHdr_body _ _) rfl
  | txSendNotice _ _ str => exact (strStore_fillsBelowUlen _ _ str _).of_variantInit
  | rxListen => exact fillsBelowUlen_of_bodyKept fun _ => rfl
  | _ => exact fillsBelowUlen_of_bodyKept (written_body (by rfl) s)

/-- The commit of a received frame fills the body up to its length (47_framer.md R207). -/
theorem memWrite_zero_body (s : State) (bytes : List Byte) (j : Nat) :
    (s.memWrite 0 bytes).body j = if j < bytes.length - 1 then bytes[j + 1]? else s.body j := by
  simp only [State.body, State.memWrite_mem, Memory.read_writeBytes]
  by_cases hj : j < bytes.length - 1
  · rw [if_pos (by omega), if_pos hj, show 1 + j - 0 = j + 1 by omega]
  · rw [if_neg (by omega), if_neg hj]

/-- Every operation but FB_BODY_WRITE fills bytes below the new `ulen` and keeps the others. -/
theorem exec_fillsBelowUlen {i : Instr} {s t : State} (h : exec i s = .next t)
    (hi : ∀ index value, i ≠ .fbBodyWrite index value) : FillsBelowUlen s t := by
  rcases (exec_next h).frame with ⟨hm, -⟩ | ⟨hm, hu⟩ | ⟨-, bytes, hm, hu⟩
  · exact fillsBelowUlen_of_bodyKept (State.view_of_mem_eq hm).2
  · exact (written_fillsBelowUlen hi s).congr (State.view_of_mem_eq hm).2 hu
  · intro j
    have hb : t.body j = (s.memWrite 0 bytes).body j := (State.view_of_mem_eq hm).2 j
    rw [hb, memWrite_zero_body, hu]
    split
    · exact .inr ⟨‹_›, by simp; omega⟩
    · exact .inl rfl

/-- FB_BODY_WRITE clears no body byte. -/
theorem execFbBodyWrite_body_ne_none {index : Word16} {value : Byte} {s t : State}
    (h : exec (.fbBodyWrite index value) s = .next t) {j : Nat} (hj : s.body j ≠ none) :
    t.body j ≠ none := by
  rcases (exec_next h).frame with ⟨hm, -⟩ | ⟨hm, -⟩ | ⟨hi, -⟩
  · rwa [(State.view_of_mem_eq hm).2 j]
  · rw [(State.view_of_mem_eq hm).2 j, written, State.setBody_body]
    split
    · exact Option.some_ne_none value
    · exact hj
  · cases hi

/-- Settles O48: what fills bytes below the new `ulen` alone clears none and keeps those past it. -/
theorem bodyPastTheUsedLengthIsKept : Obligations.BodyPastTheUsedLengthIsKept := by
  intro i s t h
  refine ⟨fun j hj => ?_, fun hi j hle => ?_⟩
  · by_cases hi : ∃ index value, i = .fbBodyWrite index value
    · obtain ⟨index, value, rfl⟩ := hi
      exact execFbBodyWrite_body_ne_none h hj
    · have hother : ∀ index value, i ≠ .fbBodyWrite index value :=
        fun index value he => hi ⟨index, value, he⟩
      rcases exec_fillsBelowUlen h hother j with he | ⟨-, he⟩
      · exact he ▸ hj
      · exact he
  · exact (exec_fillsBelowUlen h hi j).resolve_right fun hlt => by omega

/-! ## A received frame sent on (10_state.md R23; 47_framer.md R200, R207) -/

/-- The state after RX_LISTEN has committed this frame (47_framer.md R207). -/
def heard (first : Byte) (rest : List Byte) (s : State) : State :=
  (((s.called (.readData s.cfg.frameMax)).memWrite 0 (first :: rest)).withUlen rest.length).withResp
    (.done (lengthValue (rest.length + 1)))

/-- A scripted answer is the radio's next answer. -/
theorem nextAnswer_of_scripted {s : State} {a : RadioAnswer} {left : List RadioReply}
    (h : s.radioIn = .answers a :: left) : s.nextAnswer = some a := by
  simp only [State.nextAnswer, h]

/-- RX_LISTEN commits a frame that fits the buffer. -/
theorem exec_rxListen_of_frame {s : State} {a : RadioAnswer} {first : Byte} {rest : List Byte}
    (ha : s.nextAnswer = some a) (hr : a.received = .frame first rest)
    (hfit : rest.length + 1 ≤ s.cfg.frameMax) :
    exec .rxListen s = .next (heard first rest s) := by
  have hpos : ¬ (rest.length : Int) + 1 ≤ 0 := by omega
  have hcap : ¬ ((s.called (.readData s.cfg.frameMax)).cfg.frameMax : Int) <
      (rest.length : Int) + 1 := by
    rw [State.called_cfg]; omega
  show execRxListen s = _
  unfold execRxListen receive
  rw [radioCall_of_some ha, hr, Received.length, if_neg hpos, if_neg hcap]
  rfl

/-- The committed frame stands at address 0. -/
theorem heard_read (first : Byte) (rest : List Byte) (s : State) {i : Nat}
    (hi : i < (first :: rest).length) : (heard first rest s).mem.read i = (first :: rest)[i]? := by
  simp only [heard, State.withResp_mem, State.withUlen_mem, State.memWrite_mem, Memory.read_writeBytes]
  rw [if_pos (by omega), Nat.sub_zero]

/-- TX_SEND hands exactly the bytes that the frame buffer holds to the radio (47_framer.md R200). -/
theorem exec_txSend_of_held {s : State} {bytes : List Byte} {a : RadioAnswer} (panId dst : Word16)
    (hlen : bytes.length = s.ulen + 1) (hheld : ∀ i, i < bytes.length → s.mem.read i = bytes[i]?)
    (hfit : bytes.length ≤ s.cfg.frameMax) (ha : s.nextAnswer = some a) :
    exec (.txSend panId dst) s =
      .next ((s.called (.send panId dst bytes bytes.length)).withResp
        (.done (lengthValue bytes.length) [] (.status a.status))) := by
  have hread : s.mem.readBytes bytes.length 0 s.draws = (bytes, s.draws) :=
    Memory.readBytes_eq s.draws fun i hi => by rw [Nat.zero_add]; exact hheld i hi
  show execTxSend panId dst s = _
  unfold execTxSend sendFrame
  rw [← hlen, memRead_of_le (by omega), hread]
  exact radioCall_of_some (s := s) ha

/-- Settles O54: RX_LISTEN commits the frame at address 0, and TX_SEND reads `ulen + 1` bytes from
there. -/
theorem receivedFramesAreSentOnUnchanged : Obligations.ReceivedFramesAreSentOnUnchanged := by
  intro s panId dst a a' left first rest hin hrecv hfit
  have hlisten := exec_rxListen_of_frame (nextAnswer_of_scripted hin) hrecv hfit
  have hnext : (heard first rest s).nextAnswer = some a' :=
    nextAnswer_of_scripted (left := left) (congrArg List.tail hin)
  have hsend := exec_txSend_of_held panId dst rfl (fun _ => heard_read first rest s) hfit hnext
  refine ⟨_, by simp only [execAll, hlisten, hsend]; rfl, ?_, ?_⟩
  · simp [heard]
  · rfl

/-! ## Header bits 7:5 are not interpreted (10_state.md R23) -/

/-- The two header bytes agree in TYPE, RR and FRAG. -/
def SameUsedBits (b b' : Byte) : Prop := ∀ j < 5, b'.getLsbD j = b.getLsbD j

theorem SameUsedBits.rfl {b : Byte} : SameUsedBits b b := fun _ _ => Eq.refl _

theorem SameUsedBits.headerType {b b' : Byte} (h : SameUsedBits b b') :
    headerType b' = headerType b := by
  refine BitVec.eq_of_getLsbD_eq fun j hj => ?_
  simp [Sys2Proof.headerType, hj, h j (by omega)]

theorem SameUsedBits.getFlag {b b' : Byte} (h : SameUsedBits b b') (f : Flag) :
    getFlag b' f = getFlag b f :=
  h (flagBit f) (Nat.lt_succ_of_le (flagBit_bounds f).2)

theorem SameUsedBits.putType {b b' : Byte} (h : SameUsedBits b b') (t : BitVec 3) :
    SameUsedBits (putType b t) (putType b' t) := fun j hj => by
  rw [putType_getLsbD, putType_getLsbD, h j hj]

theorem SameUsedBits.putFlag {b b' : Byte} (h : SameUsedBits b b') (f : Flag) (v : Bool) :
    SameUsedBits (putFlag b f v) (putFlag b' f v) := fun j hj => by
  rw [putFlag_getLsbD, putFlag_getLsbD, h j hj]

/-- `hdr <- hdr | 0x08` (43_command.md R146). -/
theorem SameUsedBits.or_rr {b b' : Byte} (h : SameUsedBits b b') :
    SameUsedBits (b ||| 0x08#8) (b' ||| 0x08#8) := by
  rw [or_eq_putFlag, or_eq_putFlag]
  exact h.putFlag _ _

/-- The bytes of the frame: the header, which is never UNWRITTEN, and the body bytes after it. -/
theorem State.readBytes_frame (s : State) (n d : Nat) :
    s.mem.readBytes (n + 1) 0 d =
      (s.hdr :: (s.mem.readBytes n 1 d).1, (s.mem.readBytes n 1 d).2) := by
  simp [Memory.readBytes, Memory.readByte, s.read_zero]

/-- Two states alike but for header bits 7:5 and, where `P` holds, the radio calls made. -/
structure Alike (P : Prop) (s s' : State) : Prop where
  cfg : s'.cfg = s.cfg
  ulen : s'.ulen = s.ulen
  resp : s'.resp = s.resp
  radioIn : s'.radioIn = s.radioIn
  draws : s'.draws = s.draws
  hdr : SameUsedBits s.hdr s'.hdr
  body : BodyKept s s'
  radioOut : P ∨ s'.radioOut = s.radioOut

/-- Where the first outcome completes, the second completes in a state alike. -/
def Follows (P : Prop) (o o' : Result) : Prop :=
  ∀ t, o = .next t → ∃ t', o' = .next t' ∧ Alike P t t'

/-- The header of the frame that the Command and Ack builders build is the tag alone. -/
theorem buildCode_hdr (t : BitVec 3) (cmd : Byte) (str : List Byte) (s : State) :
    (buildCode t cmd str s).hdr = t.setWidth 8 := by
  simp [buildCode]

/-- The header of the frame that TX_SEND_DATA builds: the tag 0, and FRAG on request or for a cut
string. -/
theorem buildData_hdr (fragment : Bool) (str : List Byte) (s : State) :
    (buildData fragment str s).hdr =
      (0 : BitVec 3).setWidth 8 |||
        (ofBool (fragment || decide (s.cfg.dataCap < str.length)) <<< 4) := by
  simp [buildData]

section
variable {P : Prop}

/-- Other bits 7:5 leave the state alike. -/
theorem alike_withUnusedBits (u : BitVec 3) (s : State) : Alike P s (withUnusedBits u s) where
  cfg := rfl
  ulen := rfl
  resp := rfl
  radioIn := rfl
  draws := rfl
  hdr j hj := by
    rw [withUnusedBits, State.setHdr_hdr]
    interval_cases j <;> simp
  body := State.setHdr_body s _
  radioOut := .inr rfl

namespace Alike
variable {s s' : State}

/-! ### Updates of the state -/

theorem withUlen (h : Alike P s s') {n n' : Nat} (hn : n' = n) :
    Alike P (s.withUlen n) (s'.withUlen n') :=
  { h with ulen := hn }

theorem withResp (h : Alike P s s') (r : Resp) : Alike P (s.withResp r) (s'.withResp r) :=
  { h with resp := rfl }

theorem withDraws (h : Alike P s s') (d : Nat) : Alike P (s.withDraws d) (s'.withDraws d) :=
  { h with draws := rfl }

theorem called (h : Alike P s s') {c c' : RadioCall} (hc : P ∨ c' = c) :
    Alike P (s.called c) (s'.called c') where
  cfg := h.cfg
  ulen := h.ulen
  resp := h.resp
  radioIn := congrArg List.tail h.radioIn
  draws := by rw [State.called_draws, State.called_draws, h.radioIn, h.draws]
  hdr := h.hdr
  body := h.body
  radioOut := by
    rw [State.called_radioOut, State.called_radioOut]
    rcases hc with hp | rfl
    · exact .inl hp
    · exact h.radioOut.imp id fun ho => by rw [ho]

theorem setHdr (h : Alike P s s') {b b' : Byte} (hb : SameUsedBits b b') :
    Alike P (s.setHdr b) (s'.setHdr b') :=
  { h with hdr := by simpa using hb, body := fun j => by simpa using h.body j }

theorem setBody (h : Alike P s s') (i : Nat) (v : Byte) :
    Alike P (s.setBody i v) (s'.setBody i v) :=
  { h with
    hdr := by simpa using h.hdr
    body := fun j => by rw [State.setBody_body, State.setBody_body, h.body j] }

theorem memWrite_zero (h : Alike P s s') (bytes : List Byte) :
    Alike P (s.memWrite 0 bytes) (s'.memWrite 0 bytes) :=
  { h with
    hdr := by
      simp only [State.hdr, State.memWrite_mem, Memory.read_writeBytes]
      split
      · exact .rfl
      · exact h.hdr
    body := fun j => by rw [memWrite_zero_body, memWrite_zero_body, h.body j] }

theorem variantInit (h : Alike P s s') (t : BitVec 3) : Alike P (variantInit t s) (variantInit t s') :=
  (h.setHdr .rfl).withUlen rfl

theorem setCode (h : Alike P s s') (cmd : Byte) : Alike P (setCode cmd s) (setCode cmd s') :=
  (h.setBody 0 cmd).withUlen (by rw [h.ulen])

theorem dataStore (h : Alike P s s') (str : List Byte) :
    Alike P (dataStore str s) (dataStore str s') :=
  { h with
    ulen := by rw [dataStore_ulen, dataStore_ulen, h.cfg]
    hdr := by simpa using h.hdr
    body := fun j => by rw [dataStore_body, dataStore_body, h.cfg, h.body j] }

theorem strStore (h : Alike P s s') (off : Nat) {region region' : Nat} (hr : region' = region)
    (str : List Byte) : Alike P (strStore off region str s) (strStore off region' str s') := by
  subst hr
  exact { h with
    ulen := by rw [strStore_ulen, strStore_ulen]
    hdr := by simpa using h.hdr
    body := fun j => by rw [strStore_body, strStore_body, h.body j] }

theorem buildCode (h : Alike P s s') (t : BitVec 3) (cmd : Byte) (str : List Byte) :
    Alike P (buildCode t cmd str s) (buildCode t cmd str s') :=
  ((h.variantInit t).setBody 0 cmd).strStore 1 (by rw [h.cfg]) str

theorem buildData (h : Alike P s s') (fragment : Bool) (str : List Byte) :
    Alike P (buildData fragment str s) (buildData fragment str s') :=
  ((h.variantInit 0).dataStore str).setHdr fun j _ => by simp [h.cfg]

/-! ### What an operation reads -/

theorem type (h : Alike P s s') : s'.type = s.type := h.hdr.headerType

/-- The radio gives the same answer next. -/
theorem nextAnswer (h : Alike P s s') : s'.nextAnswer = s.nextAnswer := by
  simp only [State.nextAnswer, h.radioIn, h.draws]

theorem readBytes (h : Alike P s s') (n off d : Nat) :
    s'.mem.readBytes n (1 + off) d = s.mem.readBytes n (1 + off) d :=
  Memory.readBytes_congr d fun i _ => by
    simpa only [State.body, Nat.add_assoc] using h.body (off + i)

theorem scanNul (h : Alike P s s') (fuel off d : Nat) :
    s'.mem.scanNul fuel off d = s.mem.scanNul fuel off d :=
  Memory.scanNul_congr d fun i _ _ => h.body i

/-! ### The shared operations -/

theorem follows_complete (h : Alike P s s') {r r' : Resp} (hr : r' = r) :
    Follows P (complete r s) (complete r' s') := fun t ht => by
  subst hr
  exact ⟨_, rfl, complete_next ht ▸ h.withResp r'⟩

theorem follows_raise (h : Alike P s s') (e : Status) {info info' : Int} (hi : info' = info) :
    Follows P (raise e info s) (raise e info' s') :=
  h.follows_complete (congrArg (Resp.raised e) hi)

theorem follows_tagCheck (h : Alike P s s') {tag : BitVec 3} {k : State → Result}
    (hk : Follows P (k s) (k s')) : Follows P (tagCheck tag s k) (tagCheck tag s' k) := by
  by_cases ht : s.type = tag
  · rwa [tagCheck_of_eq ht, tagCheck_of_eq (h.type.trans ht)]
  · rw [tagCheck_of_ne ht, tagCheck_of_ne (h.type.symm ▸ ht)]
    exact h.follows_raise _ (by rw [h.type])

/-- A read of body bytes, where what is done with them runs alike. -/
theorem follows_memRead (h : Alike P s s') {off n n' : Nat} (hn : n' = n)
    {k k' : List Byte → State → Result}
    (hk : ∀ bytes {t t'}, Alike P t t' → Follows P (k bytes t) (k' bytes t')) :
    Follows P (memRead s (1 + off) n k) (memRead s' (1 + off) n' k') := fun t ht => by
  subst hn
  obtain ⟨hle, hnext⟩ := memRead_next ht
  rw [memRead_of_le (h.cfg ▸ hle), h.readBytes, h.draws]
  exact hk _ (h.withDraws _) t hnext

theorem follows_getCode (h : Alike P s s') : Follows P (getCode s) (getCode s') := by
  unfold getCode
  rw [h.ulen]
  split
  · exact h.follows_raise _ rfl
  · exact h.follows_memRead (off := 0) rfl fun bytes _ _ ht => ht.follows_complete rfl

theorem follows_strScan (h : Alike P s s') (off : Nat) {k : List Byte → Nat → State → Result}
    (hk : ∀ bytes n {t t'}, Alike P t t' → Follows P (k bytes n t) (k bytes n t')) :
    Follows P (strScan off s k) (strScan off s' k) := by
  unfold strScan
  rw [h.ulen, h.cfg, h.scanNul, h.draws]
  split
  · dsimp only
    split
    · exact (h.withDraws _).follows_raise _ rfl
    · exact (h.withDraws _).follows_memRead rfl fun bytes _ _ ht => hk bytes _ ht
  · exact fun t ht => nomatch ht

theorem follows_getString (h : Alike P s s') (off : Nat) :
    Follows P (getString off s) (getString off s') :=
  h.follows_strScan off fun _ _ _ _ ht => ht.follows_complete rfl

theorem follows_getStringLength (h : Alike P s s') (off : Nat) :
    Follows P (getStringLength off s) (getStringLength off s') :=
  h.follows_strScan off fun _ _ _ _ ht => ht.follows_complete rfl

theorem follows_resolveTag (h : Alike P s s') {t t' : BitVec 3} (ht : t' = t) :
    Follows P (resolveTag t s) (resolveTag t' s') := by
  subst ht
  unfold resolveTag
  split
  · exact h.follows_raise _ rfl
  · exact h.follows_complete rfl

theorem follows_radioCall (h : Alike P s s') {c c' : RadioCall} (hc : P ∨ c' = c)
    {k : RadioAnswer → State → Result}
    (hk : ∀ a {t t'}, Alike P t t' → Follows P (k a t) (k a t')) :
    Follows P (radioCall c s k) (radioCall c' s' k) := fun t ht => by
  obtain ⟨a, ha, hnext⟩ := radioCall_next ht
  rw [radioCall_of_some (h.nextAnswer.trans ha)]
  exact hk a (h.called hc) t hnext

theorem follows_passThrough (h : Alike P s s') (c : RadioCall) :
    Follows P (passThrough c s) (passThrough c s') :=
  h.follows_radioCall (.inr rfl) fun _ _ _ ht => ht.follows_complete rfl

/-- Sending hands over the same bytes where the whole header is the same. -/
theorem follows_sendFrame (h : Alike P s s') (hh : P ∨ s'.hdr = s.hdr) (panId dst : Word16)
    {w w' v v' : Nat} (hw : w' = w) (hv : v' = v) :
    Follows P (sendFrame panId dst (w + 1) v s) (sendFrame panId dst (w' + 1) v' s') :=
  fun t ht => by
  subst hw hv
  obtain ⟨hle, hnext⟩ := memRead_next ht
  unfold sendFrame
  rw [memRead_of_le (h.cfg ▸ hle)]
  rw [State.readBytes_frame] at hnext ⊢
  have hread := h.readBytes w' 0 s'.draws
  rw [Nat.add_zero] at hread
  rw [hread, h.draws]
  refine (h.withDraws _).follows_radioCall (hh.imp id fun he => ?_) (fun a _ _ ha => ?_) t hnext
  · rw [he]
  · exact ha.follows_complete rfl

theorem follows_receive (h : Alike P s s') (r : Received) :
    Follows P (receive r s) (receive r s') := by
  unfold receive
  rw [h.cfg]
  split
  · exact h.follows_raise _ rfl
  · split
    · exact h.follows_raise _ rfl
    · exact ((h.memWrite_zero r.bytes).withUlen rfl).follows_complete rfl

end Alike
end

/-- Every operation runs alike on states alike, TX_SEND up to the call it makes. -/
theorem exec_follows (i : Instr) {s s' : State}
    (h : Alike (∃ panId dst, i = .txSend panId dst) s s') :
    Follows (∃ panId dst, i = .txSend panId dst) (exec i s) (exec i s') := by
  cases i with
  | fbInit => exact ((h.setHdr .rfl).withUlen rfl).follows_complete rfl
  | fbSetType tag => exact (h.setHdr (h.hdr.putType tag)).follows_complete rfl
  | fbGetType => exact h.follows_complete (by rw [h.type])
  | fbSetFlag sel value => exact (h.setHdr (h.hdr.putFlag sel value)).follows_complete rfl
  | fbGetFlag sel => exact h.follows_complete (by rw [h.hdr.getFlag])
  | fbBodyRead index =>
    show Follows _ (execFbBodyRead index s) (execFbBodyRead index s')
    unfold execFbBodyRead
    rw [h.cfg]
    split
    · exact h.follows_raise _ rfl
    · exact h.follows_memRead rfl fun _ _ _ ht => ht.follows_complete rfl
  | fbBodyWrite index value =>
    show Follows _ (execFbBodyWrite index value s) (execFbBodyWrite index value s')
    unfold execFbBodyWrite
    rw [h.cfg]
    split
    · exact h.follows_raise _ rfl
    · exact (h.setBody _ _).follows_complete rfl
  | fbResetLength n =>
    show Follows _ (execFbResetLength n s) (execFbResetLength n s')
    unfold execFbResetLength
    rw [h.cfg]
    split
    · exact h.follows_raise _ rfl
    · exact (h.withUlen rfl).follows_complete rfl
  | fbWireLength => exact h.follows_complete (by rw [h.ulen])
  | dataInit | cmdInit | ackInit | ntcInit => exact (h.variantInit _).follows_complete rfl
  | dataSet str =>
    dsimp only [exec, execDataSet]
    refine h.follows_tagCheck ?_
    exact (h.dataStore str).follows_complete (by rw [h.cfg])
  | dataGet =>
    dsimp only [exec, execDataGet]
    refine h.follows_tagCheck ?_
    exact h.follows_memRead (off := 0) h.ulen fun _ _ _ ht => ht.follows_complete (by rw [h.ulen])
  | dataGetLength =>
    dsimp only [exec, execDataGetLength]
    refine h.follows_tagCheck ?_
    exact h.follows_complete (by rw [h.ulen])
  | dataSetFragmented value | cmdSetResponseRequested value =>
    dsimp only [exec, execDataSetFragmented, execCmdSetResponseRequested]
    refine h.follows_tagCheck ?_
    exact (h.setHdr (h.hdr.putFlag _ value)).follows_complete rfl
  | dataIsFragmented | cmdIsResponseRequested =>
    dsimp only [exec, execDataIsFragmented, execCmdIsResponseRequested]
    refine h.follows_tagCheck ?_
    exact h.follows_complete (by rw [h.hdr.getFlag])
  | cmdEnableAckRequest =>
    dsimp only [exec, execCmdEnableAckRequest]
    refine h.follows_tagCheck ?_
    exact (h.setHdr h.hdr.or_rr).follows_complete rfl
  | cmdSetCode cmd | ackSetCode cmd =>
    dsimp only [exec, execCmdSetCode, execAckSetCode]
    refine h.follows_tagCheck ?_
    exact (h.setCode cmd).follows_complete rfl
  | cmdGetCode | ackGetCode => exact h.follows_tagCheck h.follows_getCode
  | cmdSetParam str | ackSetResponse str | ntcSet str =>
    dsimp only [exec, execCmdSetParam, execAckSetResponse, execNtcSet]
    refine h.follows_tagCheck ?_
    exact (h.strStore _ (by rw [h.cfg]) str).follows_complete (by rw [h.cfg])
  | cmdGetParam | ackGetResponse | ntcGet => exact h.follows_tagCheck (h.follows_getString _)
  | cmdGetParamLength | ackGetResponseLength | ntcGetLength =>
    exact h.follows_tagCheck (h.follows_getStringLength _)
  | pktResolve => exact h.follows_resolveTag h.type
  | txSend panId dst =>
    exact h.follows_sendFrame (.inl ⟨panId, dst, rfl⟩) panId dst h.ulen (by rw [h.ulen])
  | txSendData panId dst fragment str =>
    exact (h.buildData fragment str).follows_sendFrame
      (.inr (by rw [buildData_hdr, buildData_hdr, h.cfg])) panId dst (by rw [h.cfg]) (by rw [h.cfg])
  | txSendCommand panId dst cmd str | txSendAck panId dst cmd str =>
    exact (h.buildCode _ cmd str).follows_sendFrame (.inr (by rw [buildCode_hdr, buildCode_hdr]))
      panId dst (by rw [h.cfg]) (by rw [h.cfg])
  | txSendCommandWithAck panId dst cmd str =>
    exact ((h.buildCode 1 cmd str).setHdr (h.buildCode 1 cmd str).hdr.or_rr).follows_sendFrame
      (.inr (by rw [State.setHdr_hdr, State.setHdr_hdr, buildCode_hdr, buildCode_hdr])) panId dst
      (by rw [h.cfg]) (by rw [h.cfg])
  | txSendNotice panId dst str =>
    exact ((h.variantInit 3).strStore 0 (by rw [h.cfg]) str).follows_sendFrame
      (.inr (by simp)) panId dst (by rw [h.cfg]) (by rw [h.cfg])
  | rxListen =>
    exact h.follows_radioCall (.inr (by rw [h.cfg])) fun a _ _ ht => ht.follows_receive a.received
  | radioInit | radioBegin | radioEnd | radioRxEnable | radioRxDisable | radioSetSendMode
  | radioSetAckReq | radioSetBroadcastEnb | radioSetPromiscuous =>
    exact h.follows_passThrough _
  | radioGetSendMode | radioGetMyAddress =>
    exact h.follows_radioCall (.inr rfl) fun _ _ _ ht => ht.follows_complete rfl
  | hdrTagData => exact h.follows_resolveTag (t := 0) rfl
  | hdrTagCommand => exact h.follows_resolveTag (t := 1) rfl
  | hdrTagAck => exact h.follows_resolveTag (t := 2) rfl
  | hdrTagNotice => exact h.follows_resolveTag (t := 3) rfl
  | hdrTagReserved => exact h.follows_raise _ rfl

/-- Settles O46: other bits 7:5 leave the state alike, and operations run alike on states alike. -/
theorem unusedHeaderBitsAreNeverInterpreted : Obligations.UnusedHeaderBitsAreNeverInterpreted := by
  intro i u s t h
  obtain ⟨t', ht', halike⟩ := exec_follows i (alike_withUnusedBits u s) t h
  refine ⟨t', ht', halike.resp, halike.ulen, halike.body, and_eq_and_of_bits fun j hj => ?_,
    halike.radioIn, halike.radioOut⟩
  have h8 : j < 8 := BitVec.lt_of_getLsbD hj
  have h5 : j < 5 := by
    by_contra hge
    interval_cases j <;> cases hj
  exact halike.hdr j h5

end Sys2Proof.Machine
end

section
/-! PROOFS of the statements of 20_memory.md: repeating an operation. -/

namespace Sys2Proof.Machine

open Claims

/-! ## Repeating an operation (20_memory.md R48) -/

/-- The operations that write a part of the frame (10_state.md R21, R22, R25; 20_memory.md R42). -/
def writesFrame (i : Instr) : Bool :=
  writesType i || writesRR i || writesFrag i || writesLength i || writesBody i

/-- The operations that are no writers of the frame leave the state as it is. -/
theorem written_eq_self {i : Instr} (hi : writesFrame i = false) (s : State) : written i s = s := by
  cases i with
  | fbSetFlag sel v => cases sel <;> cases hi
  | _ => cases hi <;> rfl

/-- An operation without the radio that writes nothing changes the response registers alone, and counts
what it has drawn. -/
theorem Ran.eq_of_written_eq {i : Instr} {s t : State} (h : Ran i s t) (hu : radioUse i = .local)
    (hw : written i s = s) : ∃ d r, t = (s.withDraws d).withResp r := by
  cases h with
  | raised e info d => exact ⟨d, _, rfl⟩
  | done v bytes d => exact ⟨d, .done v bytes, by rw [hw]⟩
  | called c v rs d hc => simp [hu] at hc
  | refused c e info he hr => simp [hu] at hr
  | received c v bytes hn hl hr => simp [hu] at hr

/-! ### Writing what the frame already holds -/

@[simp] theorem putType_putType (h : Byte) (t : BitVec 3) : putType (putType h t) t = putType h t := by
  refine BitVec.eq_of_getLsbD_eq fun j _ => ?_
  simp only [putType_getLsbD]
  split <;> rfl

@[simp] theorem putFlag_putFlag (h : Byte) (f : Flag) (v : Bool) :
    putFlag (putFlag h f v) f v = putFlag h f v := by
  refine BitVec.eq_of_getLsbD_eq fun j _ => ?_
  simp only [putFlag_getLsbD]
  split <;> rfl

/-- A flag write keeps TYPE. -/
theorem headerType_putFlag (h : Byte) (f : Flag) (v : Bool) :
    headerType (putFlag h f v) = headerType h := by
  have hbits := flagBit_bounds f
  refine BitVec.eq_of_getLsbD_eq fun j hj => ?_
  have hne : j ≠ flagBit f := by omega
  simp [headerType, putFlag_getLsbD, hne]

/-- The header, the body and `ulen` are the whole frame. -/
theorem sameFrame_of_view {s t : State} (hh : t.hdr = s.hdr) (hb : BodyKept s t)
    (hu : t.ulen = s.ulen) : SameFrame s t :=
  ⟨State.read_eq hh hb, hu⟩

theorem setHdr_sameFrame {s : State} {h : Byte} (hh : s.hdr = h) : SameFrame s (s.setHdr h) :=
  sameFrame_of_view (by rw [State.setHdr_hdr, hh]) (s.setHdr_body h) rfl

theorem setBody_sameFrame {s : State} {i : Nat} {v : Byte} (hv : s.body i = some v) :
    SameFrame s (s.setBody i v) := by
  refine sameFrame_of_view (s.setBody_hdr i v) (fun j => ?_) rfl
  rw [State.setBody_body]
  split
  · rw [‹j = i›, hv]
  · rfl

theorem variantInit_sameFrame {t : BitVec 3} {s : State} (hh : s.hdr = t.setWidth 8)
    (hu : s.ulen = 0) : SameFrame s (variantInit t s) :=
  sameFrame_of_view (by rw [variantInit_hdr, hh]) (variantInit_body t s) hu.symm

theorem setCode_sameFrame {cmd : Byte} {s : State} (hb : s.body 0 = some cmd) (hu : 1 ≤ s.ulen) :
    SameFrame s (setCode cmd s) :=
  ⟨(setBody_sameFrame hb).1, max_eq_left hu⟩

theorem dataStore_sameFrame (str : List Byte) (s : State) :
    SameFrame (dataStore str s) (dataStore str (dataStore str s)) := by
  refine sameFrame_of_view (dataStore_hdr str _) (fun j => ?_) rfl
  simp only [dataStore_body, dataStore_cfg]
  split <;> rfl

theorem strStore_sameFrame (off region : Nat) (str : List Byte) (s : State) :
    SameFrame (strStore off region str s) (strStore off region str (strStore off region str s)) := by
  refine sameFrame_of_view (strStore_hdr off region str _) (fun j => ?_) rfl
  simp only [strStore_body]
  split
  · rfl
  · split <;> rfl

/-- The frame writes of an operation without the radio, made once more, leave every byte and `ulen`. -/
theorem written_sameFrame {i : Instr} (hu : radioUse i = .local) (s : State) :
    SameFrame (written i s) (written i (written i s)) := by
  cases i with
  | fbInit => exact variantInit_sameFrame (variantInit_hdr 0 s) rfl
  | fbSetType | fbSetFlag | dataSetFragmented | cmdSetResponseRequested =>
    exact setHdr_sameFrame (by simp [written])
  | cmdEnableAckRequest => exact setHdr_sameFrame (by simp [written, or_eq_putFlag])
  | fbBodyWrite => exact setBody_sameFrame (by simp [written])
  | dataInit | cmdInit | ackInit | ntcInit =>
    exact variantInit_sameFrame (variantInit_hdr _ s) rfl
  | dataSet str => exact dataStore_sameFrame str s
  | cmdSetCode | ackSetCode =>
    exact setCode_sameFrame (by simp [written, setCode]) (le_max_right _ _)
  | cmdSetParam str | ackSetResponse str | ntcSet str => exact strStore_sameFrame _ _ str s
  | _ => cases hu <;> exact ⟨fun _ => rfl, rfl⟩

/-- The frame writes of an instruction change the memory and `ulen` alone. -/
theorem written_eq_withMem_withUlen (i : Instr) (s : State) :
    written i s = (s.withMem (written i s).mem).withUlen (written i s).ulen := by
  cases i <;> rfl

/-- On canonical memories the frame writes made once more leave the whole state. -/
theorem written_written {i : Instr} {s : State} (hu : radioUse i = .local)
    (hw : (written i s).mem.wf) (hww : (written i (written i s)).mem.wf) :
    written i (written i s) = written i s := by
  obtain ⟨hread, hulen⟩ := written_sameFrame hu s
  rw [written_eq_withMem_withUlen i (written i s), Memory.eq_of_read_eq hww hw hread, hulen]
  rfl

/-! ### The writers of the frame -/

/-- A writer of the frame is refused, or it makes its frame writes and would then make them again with the
same response: it draws nothing, and what it checks and reports does not depend on what it writes. -/
def RefusedOrRepeatable (i : Instr) (s : State) : Prop :=
  (∃ e info, exec i s = raise e info s) ∨
  ∃ r, exec i s = complete r (written i s) ∧
    exec i (written i s) = complete r (written i (written i s))

theorem refusedOrRepeatable_of_tagged {i : Instr} {s : State} {tag : BitVec 3} {r : State → Resp}
    (hexec : ∀ s, exec i s = tagCheck tag s fun s => complete (r s) (written i s))
    (ht : (written i s).type = s.type) (hr : r (written i s) = r s) : RefusedOrRepeatable i s := by
  simp only [RefusedOrRepeatable, hexec]
  by_cases h : s.type = tag
  · exact .inr ⟨r s, tagCheck_of_eq h, (tagCheck_of_eq (ht.trans h)).trans (by rw [hr])⟩
  · exact .inl ⟨_, _, tagCheck_of_ne h⟩

/-- Every writer of the frame without the radio: a guard on the operand or the tag, or none, then its
writes, which keep the parameter, and the tag where it is checked. -/
theorem refusedOrRepeatable_of_writesFrame {i : Instr} (hu : radioUse i = .local) (hi : writesFrame i = true)
    (s : State) : RefusedOrRepeatable i s := by
  cases i with
  | fbInit | fbSetType | fbSetFlag | dataInit | cmdInit | ackInit | ntcInit =>
    exact .inr ⟨_, rfl, rfl⟩
  | fbBodyWrite index value =>
    by_cases h : s.cfg.bodyCap ≤ index.toNat
    · exact .inl ⟨_, _, if_pos h⟩
    · exact .inr ⟨_, if_neg h, if_neg h⟩
  | fbResetLength n =>
    by_cases h : s.cfg.bodyCap < n.toNat
    · exact .inl ⟨_, _, if_pos h⟩
    · exact .inr ⟨_, if_neg h, if_neg h⟩
  | dataSet str => exact refusedOrRepeatable_of_tagged (fun _ => rfl) (dataStore_type str s) rfl
  | cmdSetCode cmd | ackSetCode cmd =>
    exact refusedOrRepeatable_of_tagged (fun _ => rfl) (s.setBody_type 0 cmd) rfl
  | cmdSetParam str | ackSetResponse str | ntcSet str =>
    exact refusedOrRepeatable_of_tagged (fun _ => rfl) (strStore_type _ _ str s) rfl
  | dataSetFragmented v | cmdSetResponseRequested v =>
    exact refusedOrRepeatable_of_tagged (fun _ => rfl)
      ((s.setHdr_type _).trans (headerType_putFlag _ _ v)) rfl
  | cmdEnableAckRequest =>
    exact refusedOrRepeatable_of_tagged (fun _ => rfl)
      ((s.setHdr_type _).trans (or_eq_putFlag s.hdr ▸ headerType_putFlag _ _ true)) rfl
  | _ => cases hu <;> cases hi

/-- A writer of the frame that has run, run again, ends in the same state. -/
theorem exec_again_of_writesFrame {i : Instr} {s t : State} (hs : FrameInv s)
    (hu : radioUse i = .local) (hi : writesFrame i = true) (h : exec i s = .next t) :
    exec i t = .next t := by
  rcases refusedOrRepeatable_of_writesFrame hu hi s with ⟨e, info, hraise⟩ | ⟨r, hfirst, hagain⟩
  · obtain rfl := raise_next (hraise.symm.trans h)
    exact (responsesDependOnTheTransactionAlone i s _).trans h
  · obtain rfl := complete_next (hfirst.symm.trans h)
    have hw : FrameInv (written i s) := (inv_iff.1 ((exec_next h).inv hs)).1.congr rfl rfl rfl
    have hww : (written i (written i s)).mem.wf := (inv_iff.1 ((exec_next hagain).inv hw)).1.wf
    rw [written_written hu hw.wf hww] at hagain
    exact (responsesDependOnTheTransactionAlone i _ r).trans hagain

/-- Settles O50: a writer of the frame ends in the state it left; an operation that writes nothing
changes the response registers alone, which the next run does not read. -/
theorem repeatingAnOperationLeavesTheSameState :
    Obligations.RepeatingAnOperationLeavesTheSameState := by
  intro i s t hs hcalls h
  have hu : radioUse i = .local := by simpa [callsRadio_eq] using hcalls
  cases hi : writesFrame i with
  | true =>
    have hagain := exec_again_of_writesFrame (inv_iff.1 hs).1 hu hi h
    refine ⟨fun u hnext => ?_, fun _ => hagain⟩
    cases hagain.symm.trans hnext
    exact ⟨fun _ => rfl, rfl⟩
  | false =>
    refine ⟨fun u hnext => ?_, fun hdraws => ?_⟩
    · obtain ⟨d, r, rfl⟩ := (exec_next hnext).eq_of_written_eq hu (written_eq_self hi t)
      exact ⟨fun _ => rfl, rfl⟩
    · obtain ⟨d, r, rfl⟩ := (exec_next h).eq_of_written_eq hu (written_eq_self hi s)
      obtain rfl : d = s.draws := hdraws
      exact (responsesDependOnTheTransactionAlone i s r).trans h

end Sys2Proof.Machine
end

section
/-! PROOFS of the statements of 30_encoding.md: the legal command words, decode of encode, and the header byte. -/

namespace Sys2Proof.Machine

open Claims

/-! ## Legal and illegal command words (30_encoding.md R65, R66, R68) -/

section
variable {c : Command} {i : Instr}

/-- The operation map has no row for exactly the `OP` values that 30_encoding.md R68 lists. -/
theorem decodeRow_eq_none_iff : decodeRow c = none ↔ Unassigned c.op.toNat := by
  have hop := c.op.isLt
  unfold decodeRow Unassigned
  split
  case h_54 =>
    simp only [imp_false, true_iff] at *
    omega
  all_goals exact iff_of_false nofun (by omega)

theorem exists_decodeRow (h : ¬ Unassigned c.op.toNat) : ∃ i, decodeRow c = some i :=
  Option.ne_none_iff_exists'.1 (mt decodeRow_eq_none_iff.1 h)

theorem decodeCommand_of_row (hrow : decodeRow c = some i) (hres : c.reserved = 0) :
    decodeCommand c = .ok i := by
  simp only [decodeCommand, hrow, if_pos hres]

theorem decodeCommand_of_unassigned (h : Unassigned c.op.toNat) :
    decodeCommand c = .error (.unassignedOp c.op) := by
  simp only [decodeCommand, decodeRow_eq_none_iff.2 h]

theorem decodeCommand_of_reserved (h : ¬ Unassigned c.op.toNat) (hres : c.reserved ≠ 0) :
    decodeCommand c = .error (.reservedByte c.reserved) := by
  obtain ⟨i, hrow⟩ := exists_decodeRow h
  simp only [decodeCommand, hrow, if_neg hres]

/-- The legal commands: an assigned `OP` and a zero reserved byte. -/
theorem exists_decodeCommand_iff :
    (∃ i, decodeCommand c = .ok i) ↔ ¬ Unassigned c.op.toNat ∧ c.reserved = 0 := by
  by_cases h : Unassigned c.op.toNat
  · simp [decodeCommand_of_unassigned h, h]
  by_cases hres : c.reserved = 0
  · obtain ⟨i, hrow⟩ := exists_decodeRow h
    simp [decodeCommand_of_row hrow hres, h, hres]
  · simpa [decodeCommand_of_reserved h hres] using fun _ => hres

end

/-- A row is selected by `OP` and filled from the fields it reads: commands that agree in these have the
same row. -/
theorem decodeRow_congr {c c' : Command} (hop : c.op = c'.op)
    (hread : ∀ i, decodeRow c = some i → ∀ o ∈ operands i, SameField c c' o) :
    decodeRow c = decodeRow c' := by
  cases hrow : decodeRow c with
  | none => exact (decodeRow_eq_none_iff.2 (hop ▸ decodeRow_eq_none_iff.1 hrow)).symm
  | some i =>
    have hfields := hread i hrow
    clear hread
    unfold decodeRow at hrow ⊢
    rw [← hop]
    split at hrow <;> cases hrow
    all_goals simp_all [operands, SameField]

/-- Settles O8: legality is a condition on `OP` and the reserved byte, and the row is a function of `OP` and
the fields it reads. -/
theorem unreadFieldsTakeNoPart : Obligations.UnreadFieldsTakeNoPart := by
  intro c c' hop hres
  refine ⟨by rw [exists_decodeCommand_iff, exists_decodeCommand_iff, hop, hres], fun hread => ?_⟩
  simp only [decodeCommand, decodeRow_congr hop hread, hop, hres]

/-! ## Responses that leave the frame and the outside as they were (60_exceptions.md R303) -/

/-- Completing with a scalar result changes the response registers alone. -/
theorem complete_reports (v : Word16) (s : State) :
    ∃ t, complete (.done v) s = .next t ∧ SameOutside s t ∧ SameFrame s t ∧
      Reports t v.toNat [] .none :=
  ⟨_, rfl, ⟨rfl, rfl, rfl, rfl⟩, ⟨fun _ => rfl, rfl⟩, ⟨rfl, rfl, rfl, rfl, rfl⟩⟩

/-- Raising a status changes the response registers alone. -/
theorem raise_raises (e : Status) (info : Int) (s : State) :
    ∃ t, raise e info s = .next t ∧ SameOutside s t ∧ SameFrame s t ∧ Raises t e.code info :=
  ⟨_, rfl, ⟨rfl, rfl, rfl, rfl⟩, ⟨fun _ => rfl, rfl⟩, ⟨rfl, rfl, rfl, rfl, rfl⟩⟩

/-! ## Illegal words (30_encoding.md R68) -/

/-- The step of an illegal command raises ILLEGAL_OP with its cause value. -/
theorem step_of_illegal {s : State} {c : Command} {left : List HostEvent} {e : IllegalOp}
    (hport : s.port = .command c :: left) (hdec : decodeCommand c = .error e) :
    step s = raise .illegalOp e.info (s.withPort left) := by
  rw [step_of_command hport, performCommand, hdec]

/-- Settles O9: an unassigned `OP` is reported first, then the reserved byte. -/
theorem illegalWordsRaiseIllegalOp : Obligations.IllegalWordsRaiseIllegalOp := by
  intro s c left hport
  refine ⟨fun h => ?_, fun h hres => ?_⟩
  · rw [step_of_illegal hport (decodeCommand_of_unassigned h)]
    exact raise_raises _ _ (s.withPort left)
  · rw [step_of_illegal hport (decodeCommand_of_reserved h hres)]
    exact raise_raises _ _ (s.withPort left)

/-! ## The header byte (30_encoding.md R60, R61) -/

section
variable {h : Byte}

theorem decodeHeader_data (ht : headerType h = 0) :
    decodeHeader h = .hdrTagData (headerRR h) (headerFrag h) (headerUnused h) := by
  rw [decodeHeader, ht]; rfl

theorem decodeHeader_command (ht : headerType h = 1) :
    decodeHeader h = .hdrTagCommand (headerRR h) (headerFrag h) (headerUnused h) := by
  rw [decodeHeader, ht]; rfl

theorem decodeHeader_ack (ht : headerType h = 2) :
    decodeHeader h = .hdrTagAck (headerRR h) (headerFrag h) (headerUnused h) := by
  rw [decodeHeader, ht]; rfl

theorem decodeHeader_notice (ht : headerType h = 3) :
    decodeHeader h = .hdrTagNotice (headerRR h) (headerFrag h) (headerUnused h) := by
  rw [decodeHeader, ht]; rfl

theorem decodeHeader_reserved (ht : 4 ≤ (headerType h).toNat) :
    decodeHeader h = .hdrTagReserved (headerType h) (headerRR h) (headerFrag h) (headerUnused h) := by
  unfold decodeHeader
  split
  case h_5 => rfl
  all_goals omega

theorem headerType_toNat (h : Byte) : (headerType h).toNat = h.toNat % 8 := by
  simp [headerType]

/-- The mask of the type-tag decode table keeps TYPE. -/
theorem headerType_and_mask (h : Byte) : headerType (h &&& 0x07#8) = headerType h := by
  revert h; decide

/-- The mask of the reserved row selects the types 4 to 7. -/
theorem reserved_of_and_mask (h : Byte) : h &&& 0x04#8 = 0x04#8 → 4 ≤ (headerType h).toNat := by
  revert h; decide

end

/-- Settles O11: under its mask a header byte has the TYPE of its row's match value. -/
theorem headerByteDecodesByItsTag : Obligations.HeaderByteDecodesByItsTag := by
  refine ⟨fun h => ?_, fun type rr frag => ?_⟩
  · have htype : ∀ m, h &&& 0x07#8 = m → headerType h = headerType m := fun m hm => by
      rw [← hm, headerType_and_mask]
    exact ⟨headerType_toNat h, rfl, rfl, fun hm => decodeHeader_data (htype _ hm),
      fun hm => decodeHeader_command (htype _ hm), fun hm => decodeHeader_ack (htype _ hm),
      fun hm => decodeHeader_notice (htype _ hm),
      fun hm => decodeHeader_reserved (reserved_of_and_mask h hm)⟩
  · have hmask : type.setWidth 8 &&& 0b111#8 = type.setWidth 8 := by revert type; decide
    simp [packHeader, ofBool, hmask]

/-! ## Decode of encode -/

/-- A packed word decodes to the row that its `OP` selects. -/
theorem decode_packWord {op a : Byte} {p q : Word16} {r : Byte} {str : List Byte} {i : Instr}
    (hrow : decodeRow ⟨packWord op a p q r, str⟩ = some i) :
    decode (.command ⟨packWord op a p q r, str⟩) = .ok i :=
  decodeCommand_of_row hrow (packWord_reserved op a p q r str)

/-- Settles O7: a header byte by its TYPE, every command by its row of the map and by reading back each
packed operand. -/
theorem decodeOfEncodeIsTheInstruction : Obligations.DecodeOfEncodeIsTheInstruction := by
  intro i hwf
  cases i with
  | hdrTagData => simp [encode, decode, decodeHeader_data]
  | hdrTagCommand => simp [encode, decode, decodeHeader_command]
  | hdrTagAck => simp [encode, decode, decodeHeader_ack]
  | hdrTagNotice => simp [encode, decode, decodeHeader_notice]
  | hdrTagReserved tag =>
    have htag : 4 ≤ tag.toNat := by simpa [Instr.wellFormed] using hwf
    simp [encode, decode, decodeHeader_reserved, htag]
  | _ => exact decode_packWord (by simp [decodeRow])

/-- Settles O10, by evaluating the decoder on the eight words. -/
theorem writtenOutWordsDecode : Obligations.WrittenOutWordsDecode :=
  ⟨rfl, rfl, rfl, rfl, rfl, rfl, rfl, rfl⟩

/-! ## The header-tag rows (46_dispatch.md R190) -/

/-- A tag of the four known types is answered by its number, and nothing else changes. -/
theorem resolveTag_reports {tag : BitVec 3} (htag : tag.toNat < 4) (s : State) :
    ∃ t, resolveTag tag s = .next t ∧ SameOutside s t ∧ SameFrame s t ∧
      Reports t tag.toNat [] .none := by
  have hvalue : (tag.setWidth 16).toNat = tag.toNat :=
    BitVec.toNat_setWidth_of_le (by decide)
  rw [resolveTag, if_neg (by omega), ← hvalue]
  exact complete_reports _ s

/-- Settles O31: a row resolves its own tag, and the reserved row raises UNKNOWN_TYPE. -/
theorem headerRowsAnswerTheirVariant : Obligations.HeaderRowsAnswerTheirVariant :=
  fun _ _ _ s =>
    ⟨resolveTag_reports (tag := 0) (by decide) s, resolveTag_reports (tag := 1) (by decide) s,
      resolveTag_reports (tag := 2) (by decide) s, resolveTag_reports (tag := 3) (by decide) s,
      fun tag => raise_raises .unknownType tag.toNat s⟩

end Sys2Proof.Machine
end

section
/-! PROOFS of the statements of 40_codec_common.md: the tag check, and the round trips of the codecs. -/

namespace Sys2Proof.Machine

open Claims

/-! ## The tag check (40_codec_common.md R90) -/

/-- A codec operation other than its `*_INIT` is a tag check before everything else. -/
theorem exec_eq_tagCheck {i : Instr} {tag : BitVec 3} (h : accessorTag i = some tag) (s : State) :
    ∃ k, exec i s = tagCheck tag s k := by
  cases i with
  | dataSet | dataGet | dataGetLength | dataSetFragmented | dataIsFragmented
  | cmdSetCode | cmdGetCode | cmdSetParam | cmdGetParam | cmdGetParamLength | cmdEnableAckRequest
  | cmdSetResponseRequested | cmdIsResponseRequested
  | ackSetCode | ackGetCode | ackSetResponse | ackGetResponse | ackGetResponseLength
  | ntcSet | ntcGet | ntcGetLength =>
    cases h
    unfold exec
    exact ⟨_, rfl⟩
  | _ => cases h

/-- Settles O21: the tag check comes first, and on another tag it raises TYPE_MISMATCH. -/
theorem codecAccessorsCheckTheTag : Obligations.CodecAccessorsCheckTheTag := by
  intro i tag h s hs
  obtain ⟨k, hk⟩ := exec_eq_tagCheck h s
  rw [hk, tagCheck_of_ne hs]
  exact raise_raises .typeMismatch s.type.toNat s

/-! ## Instructions in sequence -/

/-- An instruction that completes hands its frame to the next one, which does not read its response. -/
theorem execAll_cons_of_complete {i j : Instr} {is : List Instr} {r : Resp} {s t : State}
    (h : exec i s = complete r t) : execAll (i :: j :: is) s = execAll (j :: is) t := by
  simp only [execAll, h, complete, responsesDependOnTheTransactionAlone j t r]

theorem execAll_singleton_of_complete {i : Instr} {r : Resp} {s t : State}
    (h : exec i s = complete r t) : execAll [i] s = .next (t.withResp r) := by
  simp only [execAll, h, complete]

/-! ## Reading back what a store step wrote (40_codec_common.md R92, R93; 42_data.md R121, R122) -/

theorem setCode_type (cmd : Byte) (s : State) : (setCode cmd s).type = s.type := s.setBody_type 0 cmd

theorem setCode_body_zero (cmd : Byte) (s : State) : (setCode cmd s).body 0 = some cmd := by
  simp [setCode]

/-- The text that `StrStore` writes is `cstr(S)` cut at the region less its NUL. -/
theorem take_storedLen (region : Nat) (str : List Byte) :
    (cstr str).take (storedLen region str) = (cstr str).take (region - 1) := by
  rw [List.take_eq_take_min (i := region - 1), storedLen, Nat.min_comm]

/-- `StrScan` after `StrStore` in the same region of the body gives the text stored. -/
theorem getString_strStore {off region : Nat} {s : State} (hr : off + region = s.cfg.bodyCap)
    (ho : off ≤ 1) (str : List Byte) :
    getString off (strStore off region str s) =
      complete (.done (lengthValue (storedLen region str)) ((cstr str).take (region - 1)))
        (strStore off region str s) := by
  have hlt := storedLen_lt hr ho str
  have hcap := s.cfg.bodyCap_add_one
  have hlen := strStore_length region str
  have hscan := strScan_text (s := strStore off region str s) (off := off)
    (text := (cstr str).take (storedLen region str))
    (fun h => nul_notMem_cstr str (List.mem_of_mem_take h))
    (fun j hj => by
      rw [hlen] at hj
      rw [strStore_body, if_neg (by omega), if_pos (by omega), Nat.add_sub_cancel_left,
        List.getElem?_take, if_pos hj])
    (by rw [strStore_body, hlen, if_pos rfl])
    (by rw [hlen, strStore_ulen]; omega)
    (by rw [strStore_ulen, strStore_cfg]; omega)
    fun bytes k => .done (lengthValue k) bytes
  rwa [hlen, take_storedLen] at hscan

theorem exec_dataSet_of_type {s : State} (ht : s.type = 0) (str : List Byte) :
    exec (.dataSet str) s =
      complete (.done (lengthValue (dataLen s.cfg str))) (dataStore str s) := by
  unfold exec execDataSet
  exact tagCheck_of_eq ht

/-- DATA_GET after the data store gives the first DATA_CAP bytes. -/
theorem exec_dataGet_dataStore {s : State} (ht : s.type = 0) (str : List Byte) :
    exec .dataGet (dataStore str s) =
      complete (.done (lengthValue (dataLen s.cfg str)) (str.take s.cfg.dataCap))
        (dataStore str s) := by
  have hle := dataLen_le_bodyCap s.cfg str
  have hcap := s.cfg.bodyCap_add_one
  have hlen : (str.take s.cfg.dataCap).length = dataLen s.cfg str := by
    rw [List.length_take, dataLen, Nat.min_comm]
  have hread := Memory.readBytes_eq (m := (dataStore str s).mem) (a := 1) (dataStore str s).draws
    (vs := str.take s.cfg.dataCap) fun j hj => by
      have hbody := dataStore_body str s j
      rw [hlen] at hj
      have hj' : j < s.cfg.dataCap := lt_of_lt_of_le hj hle
      rwa [if_pos hj, ← List.getElem?_take_of_lt hj'] at hbody
  rw [hlen] at hread
  unfold exec execDataGet
  rw [tagCheck_of_eq ((dataStore_type str s).trans ht),
    memRead_of_le (by rw [dataStore_ulen, dataStore_cfg]; omega), dataStore_ulen, hread]
  rfl

theorem exec_ntcSet_of_type {s : State} (ht : s.type = 3) (str : List Byte) :
    exec (.ntcSet str) s =
      complete (.done (lengthValue (storedLen s.cfg.noticeRegion str)))
        (strStore 0 s.cfg.noticeRegion str s) := by
  unfold exec execNtcSet
  exact tagCheck_of_eq ht

/-- NTC_GET after the string store gives the text cut at NOTICE_STR_MAX. -/
theorem exec_ntcGet_strStore {s : State} (ht : s.type = 3) (str : List Byte) :
    exec .ntcGet (strStore 0 s.cfg.noticeRegion str s) =
      complete (.done (lengthValue (storedLen s.cfg.noticeRegion str))
        ((cstr str).take s.cfg.noticeStrMax)) (strStore 0 s.cfg.noticeRegion str s) := by
  unfold exec execNtcGet
  rw [tagCheck_of_eq ((strStore_type 0 _ str s).trans ht)]
  exact getString_strStore s.cfg.noticeRegion_eq (by decide) str

/-! ## The codecs with a code byte and a text: Command and Ack -/

/-- These instructions are a codec of this tag with the code in `body[0]` and the text after it
(43_command.md R140 to R144; 44_ack.md R160 to R164). -/
structure CodeTextCodec (tag : BitVec 3) (init : Instr) (setsCode : Byte → Instr)
    (setsText : List Byte → Instr) (getsText getsCode : Instr) : Prop where
  exec_init (s : State) : exec init s = complete .done (variantInit tag s)
  exec_setsCode (cmd : Byte) (s : State) :
    exec (setsCode cmd) s = tagCheck tag s fun s => complete .done (setCode cmd s)
  exec_setsText (str : List Byte) (s : State) :
    exec (setsText str) s = tagCheck tag s fun s =>
      complete (.done (lengthValue (storedLen s.cfg.cmdRegion str)))
        (strStore 1 s.cfg.cmdRegion str s)
  exec_getsText (s : State) : exec getsText s = tagCheck tag s (getString 1)
  exec_getsCode (s : State) : exec getsCode s = tagCheck tag s getCode

theorem commandCodec :
    CodeTextCodec 1 .cmdInit .cmdSetCode .cmdSetParam .cmdGetParam .cmdGetCode :=
  ⟨fun _ => rfl, fun _ _ => rfl, fun _ _ => rfl, fun _ => rfl, fun _ => rfl⟩

theorem ackCodec :
    CodeTextCodec 2 .ackInit .ackSetCode .ackSetResponse .ackGetResponse .ackGetCode :=
  ⟨fun _ => rfl, fun _ _ => rfl, fun _ _ => rfl, fun _ => rfl, fun _ => rfl⟩

/-- The text reads back cut at CMD_STR_MAX, and then the code, which the text does not overwrite. -/
theorem CodeTextCodec.roundTrip {tag : BitVec 3} {init getsText getsCode : Instr}
    {setsCode : Byte → Instr} {setsText : List Byte → Instr}
    (hc : CodeTextCodec tag init setsCode setsText getsText getsCode) (s : State) (cmd : Byte)
    (str : List Byte) :
    ∃ t u, execAll [init, setsCode cmd, setsText str, getsText] s = .next t ∧
      t.resp.bytes = (cstr str).take s.cfg.cmdStrMax ∧
      exec getsCode t = .next u ∧ u.resp.value.toNat = cmd.toNat := by
  have hcoded : (setCode cmd (variantInit tag s)).type = tag :=
    (setCode_type cmd _).trans (variantInit_type tag s)
  have htyped := (strStore_type 1 s.cfg.cmdRegion str _).trans hcoded
  have hset := (hc.exec_setsCode cmd _).trans (tagCheck_of_eq (variantInit_type tag s))
  have htext := (hc.exec_setsText str _).trans (tagCheck_of_eq hcoded)
  have hgetText := ((hc.exec_getsText _).trans (tagCheck_of_eq htyped)).trans
    (getString_strStore (s := setCode cmd (variantInit tag s)) s.cfg.cmdRegion_add_one le_rfl str)
  have hcode : (strStore 1 s.cfg.cmdRegion str (setCode cmd (variantInit tag s))).body 0 =
      some cmd := by
    rw [strStore_body, if_neg (by omega), if_neg (by omega), setCode_body_zero]
  have hgetCode := ((hc.exec_getsCode _).trans (tagCheck_of_eq htyped)).trans
    (getCode_written hcode (by rw [strStore_ulen]; omega))
  have hrun := (execAll_cons_of_complete (hc.exec_init s)).trans
    ((execAll_cons_of_complete hset).trans
      ((execAll_cons_of_complete htext).trans (execAll_singleton_of_complete hgetText)))
  exact ⟨_, _, hrun, rfl, (responsesDependOnTheTransactionAlone getsCode _ _).trans hgetCode,
    BitVec.toNat_setWidth_of_le (by decide)⟩

/-! ## The codecs with a body of one kind: Data and Notice -/

/-- The data reads back cut at DATA_CAP, and FRAG stays 0. -/
theorem dataCodec_roundTrip (s : State) (str : List Byte) :
    ∃ t, execAll [.dataInit, .dataSet str, .dataGet] s = .next t ∧
      t.resp.bytes = str.take s.cfg.dataCap ∧ headerFrag t.hdr = false := by
  have htype := variantInit_type 0 s
  have hinit : exec .dataInit s = complete .done (variantInit 0 s) := rfl
  have hrun := (execAll_cons_of_complete hinit).trans
    ((execAll_cons_of_complete (exec_dataSet_of_type htype str)).trans
      (execAll_singleton_of_complete (exec_dataGet_dataStore htype str)))
  refine ⟨_, hrun, rfl, ?_⟩
  rw [State.withResp_hdr, dataStore_hdr, variantInit_hdr]
  rfl

/-- The text reads back cut at NOTICE_STR_MAX. -/
theorem noticeCodec_roundTrip (s : State) (str : List Byte) :
    ∃ t, execAll [.ntcInit, .ntcSet str, .ntcGet] s = .next t ∧
      t.resp.bytes = (cstr str).take s.cfg.noticeStrMax := by
  have htype := variantInit_type 3 s
  have hinit : exec .ntcInit s = complete .done (variantInit 3 s) := rfl
  have hrun := (execAll_cons_of_complete hinit).trans
    ((execAll_cons_of_complete (exec_ntcSet_of_type htype str)).trans
      (execAll_singleton_of_complete (exec_ntcGet_strStore htype str)))
  exact ⟨_, hrun, rfl⟩

/-- Settles O51: each codec reads back what its store step wrote; Command and Ack by one argument. -/
theorem codecRoundTripsGiveBackWhatWasSet : Obligations.CodecRoundTripsGiveBackWhatWasSet :=
  fun s => ⟨dataCodec_roundTrip s, commandCodec.roundTrip s, ackCodec.roundTrip s,
    noticeCodec_roundTrip s⟩

end Sys2Proof.Machine
end

section
/-! PROOFS of the statements of 41_frame_buffer.md: the operations of the frame buffer, one by one. -/

namespace Sys2Proof.Machine

open Claims

/-! ## Decoding and completing -/

/-- Where `OP` selects a row, the reserved byte alone is left to check. -/
theorem decodesTo_of_row {op : Byte} {i : Command → Instr}
    (h : ∀ c : Command, c.op = op → decodeRow c = some (i c)) : DecodesTo op i :=
  fun c hop hres => decodeCommand_of_row (h c hop) hres

/-- A completed operation reports its scalar result, and every other register is none. -/
theorem done_reports (v : Word16) (s : State) :
    Reports (s.withResp (.done v)) v.toNat [] .none :=
  ⟨rfl, rfl, rfl, rfl, rfl⟩

/-- Completing with another header changes the header and the response registers alone. -/
theorem complete_setHdr (h : Byte) (s : State) :
    ∃ t, complete .done (s.setHdr h) = .next t ∧ SameOutside s t ∧ t.hdr = h ∧ t.ulen = s.ulen ∧
      BodyKept s t ∧ Reports t 0 [] .none :=
  ⟨_, rfl, ⟨rfl, rfl, rfl, rfl⟩, s.setHdr_hdr h, rfl, s.setHdr_body h, done_reports 0 _⟩

/-! ## FB_INIT (41_frame_buffer.md R100) -/

/-- Removing the cell at an address once more removes nothing. -/
@[simp] theorem Memory.drop_drop (m : Memory) (a : Nat) : (m.drop a).drop a = m.drop a := by
  simp only [Memory.drop, List.filter_filter, Bool.and_self]

/-- The header 0x00 is the absence of its cell, so clearing it twice leaves the same memory, canonical or
not. -/
theorem Memory.write_hdr_zero_idem (m : Memory) :
    (m.write 0 0x00#8).write 0 0x00#8 = m.write 0 0x00#8 :=
  m.drop_drop 0

/-- Settles O12: the header write reaches no body byte, and made twice it leaves the same memory. -/
theorem fbInitClearsHeaderAndLength : Obligations.FbInitClearsHeaderAndLength := by
  refine ⟨decodesTo_of_row fun c hop => by simp [decodeRow, hop], fun s => ?_⟩
  have hagain : exec .fbInit (((s.setHdr 0x00).withUlen 0).withResp .done) =
      complete .done ((s.setHdr 0x00).withUlen 0) :=
    congrArg (fun m : Memory => complete .done ((s.withMem m).withUlen 0)) s.mem.write_hdr_zero_idem
  exact ⟨_, rfl, ⟨rfl, rfl, rfl, rfl⟩, s.setHdr_hdr 0x00, rfl, s.setHdr_body 0x00, done_reports 0 _,
    hagain⟩

/-! ## TYPE (41_frame_buffer.md R101, R102) -/

@[simp] theorem headerType_putType (h : Byte) (t : BitVec 3) : headerType (putType h t) = t := by
  refine BitVec.eq_of_getLsbD_eq fun j hj => ?_
  simp [headerType, putType_getLsbD, hj]

/-- FB_GET_TYPE answers TYPE and changes the response registers alone. -/
theorem exec_fbGetType_reports (s : State) :
    ∃ t, exec .fbGetType s = .next t ∧ SameOutside s t ∧ SameFrame s t ∧
      Reports t s.type.toNat [] .none := by
  have hvalue : (s.type.setWidth 16).toNat = s.type.toNat := BitVec.toNat_setWidth_of_le (by decide)
  exact hvalue ▸ complete_reports (s.type.setWidth 16) s

/-- Settles O13: the header write keeps `ulen` and the body, and TYPE of the new header is the tag. -/
theorem fbSetTypeWritesTheTagAlone : Obligations.FbSetTypeWritesTheTagAlone := by
  refine ⟨decodesTo_of_row fun c hop => by simp [decodeRow, hop], fun tag s => ?_⟩
  obtain ⟨t, hexec, hout, hhdr, hulen, hbody, hrep⟩ := complete_setHdr (putType s.hdr tag) s
  have htype : t.type = tag := by rw [State.type, hhdr, headerType_putType]
  obtain ⟨u, hget, -, -, hanswer⟩ := exec_fbGetType_reports t
  exact ⟨t, hexec, hout, hhdr, hulen, hbody, hrep, u, hget, htype ▸ hanswer⟩

/-! ## The flags (41_frame_buffer.md R103, R104) -/

theorem flagValue_toNat (b : Bool) : (flagValue b).toNat = if b then 1 else 0 := by
  cases b <;> rfl

/-- FB_GET_FLAG answers the flag's header bit and changes the response registers alone. -/
theorem exec_fbGetFlag_reports (f : Flag) (s : State) :
    ∃ t, exec (.fbGetFlag f) s = .next t ∧ SameOutside s t ∧ SameFrame s t ∧
      Reports t (if s.hdr.getLsbD (flagBit f) then 1 else 0) [] .none :=
  flagValue_toNat (s.hdr.getLsbD (flagBit f)) ▸ complete_reports (flagValue (getFlag s.hdr f)) s

/-- Settles O14: TYPE as a number is the header modulo 8, and the flags are its bits 3 and 4. -/
theorem fbGettersReadHeaderFields : Obligations.FbGettersReadHeaderFields := by
  refine ⟨decodesTo_of_row fun c hop => by simp [decodeRow, hop],
    decodesTo_of_row fun c hop => by simp [decodeRow, hop, flagOf], fun s => ⟨?_,
    exec_fbGetFlag_reports .responseRequested s, exec_fbGetFlag_reports .fragmented s⟩⟩
  rw [← headerType_toNat]
  exact exec_fbGetType_reports s

/-- A write of RR by its masks: `~(1 << 3)` is 0xF7. -/
theorem putFlag_responseRequested (h : Byte) (v : Bool) :
    putFlag h .responseRequested v = (h &&& 0xF7#8) ||| (if v then 0x08#8 else 0x00#8) := by
  cases v <;> rfl

/-- A write of FRAG by its masks: `~(1 << 4)` is 0xEF. -/
theorem putFlag_fragmented (h : Byte) (v : Bool) :
    putFlag h .fragmented v = (h &&& 0xEF#8) ||| (if v then 0x10#8 else 0x00#8) := by
  cases v <;> rfl

/-- The second of two writes of one flag decides. -/
theorem putFlag_overwrite (h : Byte) (f : Flag) (v w : Bool) :
    putFlag (putFlag h f v) f w = putFlag h f w := by
  refine BitVec.eq_of_getLsbD_eq fun j _ => ?_
  simp only [putFlag_getLsbD]
  split <;> rfl

/-- Settles O15: each write by its masks, and of the two writes of FRAG the second decides. -/
theorem fbSetFlagWritesOneBit : Obligations.FbSetFlagWritesOneBit := by
  refine ⟨decodesTo_of_row fun c hop => by simp [decodeRow, hop, flagOf, boolOf],
    fun v s => ⟨?_, ?_, ?_⟩⟩
  · exact putFlag_responseRequested s.hdr v ▸ complete_setHdr (putFlag s.hdr .responseRequested v) s
  · exact putFlag_fragmented s.hdr v ▸ complete_setHdr (putFlag s.hdr .fragmented v) s
  · have hset (v : Bool) (s : State) : exec (.fbSetFlag .fragmented v) s =
        complete .done (s.setHdr (putFlag s.hdr .fragmented v)) := rfl
    refine ⟨_, (execAll_cons_of_complete (hset true s)).trans
      (execAll_singleton_of_complete (hset false _)), ?_⟩
    rw [State.withResp_hdr, State.setHdr_hdr, State.setHdr_hdr, putFlag_overwrite,
      putFlag_fragmented]
    exact BitVec.or_zero

/-! ## One body byte (41_frame_buffer.md R105, R106) -/

/-- Answering one body byte below BODY_CAP: the held byte, or some byte where it is UNWRITTEN
(10_state.md R24). -/
theorem memRead_bodyByte_reports {i : Nat} {s : State} (hi : i < s.cfg.bodyCap) :
    ∃ t, ∃ v : Byte,
      (memRead s (1 + i) 1 fun bytes s' => complete (.done ((bytes.headD 0).setWidth 16)) s') =
        .next t ∧ SameOutside s t ∧ SameFrame s t ∧ Reports t v.toNat [] .none ∧
      ∀ v', s.body i = some v' → v = v' := by
  have hcap := s.cfg.bodyCap_add_one
  have hvalue (v : Byte) : (v.setWidth 16).toNat = v.toNat := BitVec.toNat_setWidth_of_le (by decide)
  refine ⟨_, (s.mem.readByte (1 + i) s.draws).1, memRead_of_le (by omega), ⟨rfl, rfl, rfl, rfl⟩,
    ⟨fun _ => rfl, rfl⟩, hvalue _ ▸ done_reports _ _, fun v' hv => ?_⟩
  rw [State.body] at hv
  rw [Memory.readByte, hv]

/-- Settles O16: the guard raises BAD_INDEX, and below it one byte inside the frame is read. -/
theorem fbBodyReadIsBoundedByCapacity : Obligations.FbBodyReadIsBoundedByCapacity := by
  refine ⟨decodesTo_of_row fun c hop => by simp [decodeRow, hop],
    fun index s => ⟨fun hge => ?_, fun hlt => ?_⟩⟩
  · rw [exec, execFbBodyRead, if_pos hge]
    exact raise_raises .badIndex index.toNat s
  · rw [exec, execFbBodyRead, if_neg (by omega)]
    exact memRead_bodyByte_reports hlt

/-- Settles O17: the guard raises BAD_INDEX, and below it one body byte is written. -/
theorem fbBodyWriteStoresOneByte : Obligations.FbBodyWriteStoresOneByte := by
  refine ⟨decodesTo_of_row fun c hop => by simp [decodeRow, hop],
    fun index value s => ⟨fun hge => ?_, fun hlt => ?_⟩⟩
  · rw [exec, execFbBodyWrite, if_pos hge]
    exact raise_raises .badIndex index.toNat s
  · rw [exec, execFbBodyWrite, if_neg (by omega)]
    have hbody (j : Nat) := s.setBody_body index.toNat j value
    exact ⟨_, rfl, ⟨rfl, rfl, rfl, rfl⟩, s.setBody_hdr index.toNat value, rfl,
      (hbody _).trans (if_pos rfl), fun j hj => (hbody j).trans (if_neg hj), done_reports 0 _⟩

/-! ## The used length (41_frame_buffer.md R107, R108) -/

/-- Settles O18: the guard raises CAPACITY_VIOLATION, and up to it `ulen` alone is written. -/
theorem fbResetLengthIsBoundedByCapacity : Obligations.FbResetLengthIsBoundedByCapacity := by
  refine ⟨decodesTo_of_row fun c hop => by simp [decodeRow, hop],
    fun n s => ⟨fun hgt => ?_, fun hle => ?_⟩⟩
  · rw [exec, execFbResetLength, if_pos hgt]
    exact raise_raises .capacityViolation n.toNat s
  · rw [exec, execFbResetLength, if_neg (by omega)]
    exact ⟨_, rfl, ⟨rfl, rfl, rfl, rfl⟩, rfl, rfl, fun _ => rfl, done_reports 0 _⟩

/-- Settles O19: under `ulen <= BODY_CAP` the wire length is at most FRAME_MAX and fits `resp.value`. -/
theorem fbWireLengthCountsTheHeader : Obligations.FbWireLengthCountsTheHeader := by
  refine ⟨decodesTo_of_row fun c hop => by simp [decodeRow, hop], fun s hs => ?_⟩
  have hcap := s.cfg.bodyCap_add_one
  have hmax := s.cfg.frameMax_le
  have hvalue : (lengthValue (s.ulen + 1)).toNat = s.ulen + 1 := lengthValue_toNat (by omega)
  obtain ⟨t, hexec, hout, hframe, hrep⟩ := complete_reports (lengthValue (s.ulen + 1)) s
  exact ⟨t, hexec, hout, hframe, hvalue ▸ hrep, by omega⟩

end Sys2Proof.Machine
end

section
/-! PROOFS of the statements of 42_data.md: the Data codec, and the `*_INIT` and flag rules it shares with the other codecs. -/

namespace Sys2Proof.Machine

open Claims

/-! ## The `*_INIT` of every codec (40_codec_common.md R91) -/

/-- An instruction that is VariantInit alone stamps its tag and keeps the body. -/
theorem initStamps_of_variantInit {op : Byte} {tag : BitVec 3} {i : Instr}
    (hdec : DecodesTo op fun _ => i) (hexec : ∀ s, exec i s = complete .done (variantInit tag s)) :
    InitStamps op (tag.setWidth 8) i :=
  ⟨hdec, fun s => ⟨_, hexec s, ⟨rfl, rfl, rfl, rfl⟩, variantInit_hdr tag s, rfl, variantInit_body tag s,
    done_reports 0 _⟩⟩

/-- Settles O20: each of the four is VariantInit of its tag. -/
theorem variantInitStampsTheTag : Obligations.VariantInitStampsTheTag := by
  refine ⟨initStamps_of_variantInit (tag := 0) ?_ fun _ => rfl,
    initStamps_of_variantInit (tag := 1) ?_ fun _ => rfl,
    initStamps_of_variantInit (tag := 2) ?_ fun _ => rfl,
    initStamps_of_variantInit (tag := 3) ?_ fun _ => rfl⟩
  all_goals exact decodesTo_of_row fun c hop => by simp [decodeRow, hop]

/-! ## Storing and reading the data (42_data.md R121 to R123) -/

/-- A length within the body is reported exactly: it fits the 16 bits of `resp.value` (00_scope.md R6). -/
theorem done_lengthValue_reports {n : Nat} {c : Config} (hn : n ≤ c.bodyCap) (bytes : List Byte)
    (s : State) : Reports (s.withResp (.done (lengthValue n) bytes)) n bytes .none := by
  have hcap := c.bodyCap_add_one
  have hmax := c.frameMax_le
  have hvalue : (lengthValue n).toNat = n := lengthValue_toNat (by omega)
  exact ⟨rfl, hvalue, rfl, rfl, rfl⟩

/-- Settles O22: the data store writes the first `min(|S|, DATA_CAP)` body bytes and `ulen` alone. -/
theorem dataSetStoresUpToCapacity : Obligations.DataSetStoresUpToCapacity := by
  refine ⟨decodesTo_of_row fun c hop => by simp [decodeRow, hop],
    fun str => codecAccessorsCheckTheTag (.dataSet str) 0 rfl, fun str s ht => ?_⟩
  have hbody := dataStore_body str s
  exact ⟨_, dataLen s.cfg str, rfl, exec_dataSet_of_type ht str, ⟨rfl, rfl, rfl, rfl⟩,
    dataStore_hdr str s, rfl, fun j hj => (hbody j).trans (if_pos hj),
    fun j hj => (hbody j).trans (if_neg hj.not_gt),
    done_lengthValue_reports (dataLen_le_bodyCap s.cfg str) [] _⟩

/-- DATA_GET on a Data frame reads the `ulen` bytes after the header, all inside the frame. -/
theorem exec_dataGet_of_type {s : State} (ht : s.type = 0) (hu : s.ulen ≤ s.cfg.bodyCap) :
    exec .dataGet s =
      complete (.done (lengthValue s.ulen) (s.mem.readBytes s.ulen 1 s.draws).1)
        (s.withDraws (s.mem.readBytes s.ulen 1 s.draws).2) := by
  have hcap := s.cfg.bodyCap_add_one
  unfold exec execDataGet
  rw [tagCheck_of_eq ht, memRead_of_le (by omega)]

/-- Settles O23: the read gives `ulen` bytes, each held one as it is held, and no write is made. -/
theorem dataGettersReadTheUsedBody : Obligations.DataGettersReadTheUsedBody := by
  refine ⟨decodesTo_of_row fun c hop => by simp [decodeRow, hop],
    decodesTo_of_row fun c hop => by simp [decodeRow, hop],
    codecAccessorsCheckTheTag .dataGet 0 rfl, codecAccessorsCheckTheTag .dataGetLength 0 rfl,
    fun s ht hu => ?_⟩
  constructor
  · exact ⟨_, _, exec_dataGet_of_type ht hu, ⟨rfl, rfl, rfl, rfl⟩, ⟨fun _ => rfl, rfl⟩,
      done_lengthValue_reports hu _ _, s.mem.readBytes_length s.ulen 1 s.draws,
      fun j v hj hv => Memory.readBytes_getElem? hj hv⟩
  · exact ⟨_, tagCheck_of_eq ht, ⟨rfl, rfl, rfl, rfl⟩, ⟨fun _ => rfl, rfl⟩,
      done_lengthValue_reports hu [] s⟩

/-! ## The flags of a codec (42_data.md R124, R125; 43_command.md R147, R148) -/

/-- A flag write by the mask of its bit. -/
theorem putFlag_eq_mask (h : Byte) (f : Flag) (v : Bool) :
    putFlag h f v =
      (h &&& ~~~(0x01#8 <<< flagBit f)) ||| (if v then 0x01#8 <<< flagBit f else 0x00#8) := by
  cases v
  · exact congrArg _ (BitVec.zero_shiftLeft _)
  · rfl

/-- A codec operation that checks its tag and then writes the flag `f` sets that header bit alone. -/
theorem setsFlag_of_putFlag {op : Byte} {tag : BitVec 3} (f : Flag) {i : Bool → Instr}
    (hdec : DecodesTo op fun c => i (c.a.getLsbD 0)) (htag : ∀ v, accessorTag (i v) = some tag)
    (hexec : ∀ v s, exec (i v) s =
      tagCheck tag s fun s => complete .done (s.setHdr (putFlag s.hdr f v))) :
    SetsFlag op tag (0x01#8 <<< flagBit f) i := by
  refine ⟨hdec, fun v => codecAccessorsCheckTheTag (i v) tag (htag v), fun v s ht => ?_⟩
  rw [hexec, tagCheck_of_eq ht, ← putFlag_eq_mask]
  exact complete_setHdr (putFlag s.hdr f v) s

/-- A codec operation that checks its tag and then answers the flag `f` reads that header bit alone. -/
theorem readsFlag_of_getFlag {op : Byte} {tag : BitVec 3} (f : Flag) {i : Instr}
    (hdec : DecodesTo op fun _ => i) (htag : accessorTag i = some tag)
    (hexec : ∀ s, exec i s =
      tagCheck tag s fun s => complete (.done (flagValue (getFlag s.hdr f))) s) :
    ReadsFlag op tag (flagBit f) i := by
  refine ⟨hdec, codecAccessorsCheckTheTag i tag htag, fun s ht => ?_⟩
  rw [hexec, tagCheck_of_eq ht]
  exact flagValue_toNat (s.hdr.getLsbD (flagBit f)) ▸ complete_reports (flagValue (getFlag s.hdr f)) s

/-- Settles O24: after the tag check, the one writes FRAG and the other reads it. -/
theorem dataFragmentedFlagIsFrag : Obligations.DataFragmentedFlagIsFrag :=
  ⟨setsFlag_of_putFlag .fragmented (decodesTo_of_row fun c hop => by simp [decodeRow, hop, boolOf])
      (fun _ => rfl) fun _ _ => rfl,
    readsFlag_of_getFlag .fragmented (decodesTo_of_row fun c hop => by simp [decodeRow, hop]) rfl
      fun _ => rfl⟩

end Sys2Proof.Machine
end

section
/-! PROOFS of the statements of 43_command.md: the code byte, the text and the response-requested flag of the Command codec, and what the Ack and Notice codecs share with it. -/

namespace Sys2Proof.Machine

open Claims

/-! ## The terminator scan over any bytes (40_codec_common.md R93; 10_state.md R24) -/

namespace Memory

variable {m : Memory} {fuel j d r : Nat}

/-- Reading a held byte gives it and draws nothing. -/
theorem readByte_of_some {a : Nat} {v : Byte} (h : m.read a = some v) : m.readByte a d = (v, d) := by
  simp only [readByte, h]

/-- The scan stops at no byte but a NUL or one that is UNWRITTEN. -/
theorem scanNul_stop (h : (m.scanNul fuel j d).1 = some r) :
    m.read (1 + r) = some nul ∨ m.read (1 + r) = none := by
  induction fuel generalizing j d with
  | zero => cases h
  | succ n ih =>
    simp only [scanNul] at h
    split at h
    · rename_i hnul
      cases h
      cases hread : m.read (1 + r) with
      | none => exact .inr rfl
      | some v => rw [readByte_of_some hread] at hnul; exact .inl (congrArg some hnul)
    · exact ih h

/-- A byte in the range that the scan passes by is not a held NUL. -/
theorem scanNul_passed {i : Nat} (hji : j ≤ i) (hif : i < j + fuel)
    (h : ∀ r, (m.scanNul fuel j d).1 = some r → i < r) : m.read (1 + i) ≠ some nul := by
  induction fuel generalizing j d with
  | zero => omega
  | succ n ih =>
    simp only [scanNul] at h
    split at h
    · have := h j rfl
      omega
    · rename_i hnul
      rcases Nat.eq_or_lt_of_le hji with rfl | hlt
      · exact fun hread => hnul (by rw [readByte_of_some hread])
      · exact ih hlt (by omega) h

end Memory

/-! ## The string getters and length queries (43_command.md R144, R145) -/

/-- What a scan that answers its text or only its length does on a frame inside the buffer. -/
theorem strScan_scanAnswers {s : State} (hu : s.ulen ≤ s.cfg.bodyCap) (off : Nat) (withBytes : Bool) :
    ∃ t, (strScan off s fun bytes k s' =>
        complete (.done (lengthValue k) (if withBytes then bytes else [])) s') = .next t ∧
      SameOutside s t ∧ SameFrame s t ∧ ScanAnswers off withBytes s t := by
  have hcap := s.cfg.bodyCap_add_one
  obtain ⟨t, ht⟩ := strScan_completes (off := off) (s := s)
    (k := fun bytes k s' => complete (.done (lengthValue k) (if withBytes then bytes else [])) s')
    (by omega) fun _ _ _ => ⟨_, rfl⟩
  refine ⟨t, ht, ?_⟩
  obtain ⟨-, ⟨hnone, rfl⟩ | ⟨k, d, hfound, hk, hdone⟩⟩ := strScan_next ht
  · have hpassed (j : Nat) (hj : off ≤ j) (hju : j < s.ulen) : s.body j ≠ some nul :=
      Memory.scanNul_passed (fuel := s.ulen - off) (d := s.draws) hj (by omega) (by simp [hnone])
    exact ⟨⟨rfl, rfl, rfl, rfl⟩, ⟨fun _ => rfl, rfl⟩, .inl ⟨⟨rfl, rfl, rfl, rfl, rfl⟩, hpassed⟩⟩
  · cases complete_next hdone
    have hpassed (j : Nat) (hj : j < k) : s.body (off + j) ≠ some nul :=
      Memory.scanNul_passed (j := off) (fuel := s.ulen - off) (d := s.draws) (by omega) (by omega)
        (by simpa [hfound] using hj)
    have hread (j : Nat) (hj : j < k) (v : Byte) (hv : s.body (off + j) = some v) :
        (s.mem.readBytes k (1 + off) d).1[j]? = some v :=
      Memory.readBytes_getElem? hj (by rwa [State.body, ← Nat.add_assoc] at hv)
    have hfits : k ≤ s.cfg.bodyCap := by omega
    exact ⟨⟨rfl, rfl, rfl, rfl⟩, ⟨fun _ => rfl, rfl⟩,
      .inr ⟨k, _, hk, done_lengthValue_reports hfits _ _, s.mem.readBytes_length k (1 + off) d,
        Memory.scanNul_stop hfound, fun j hj => ⟨hpassed j hj, hread j hj⟩⟩⟩

/-- A codec operation that checks its tag and then scans is a string getter or a length query. -/
theorem scansString_of_strScan {op : Byte} {tag : BitVec 3} {off : Nat} {withBytes : Bool} {i : Instr}
    (hdec : DecodesTo op fun _ => i) (htag : accessorTag i = some tag)
    (hexec : ∀ s, exec i s = tagCheck tag s fun s => strScan off s fun bytes k s' =>
      complete (.done (lengthValue k) (if withBytes then bytes else [])) s') :
    ScansString op tag off withBytes i := by
  refine ⟨hdec, codecAccessorsCheckTheTag i tag htag, fun s ht hu => ?_⟩
  rw [hexec, tagCheck_of_eq ht]
  exact strScan_scanAnswers hu off withBytes

/-- Settles O28: on held bytes the scan stops at the first NUL, and the six differ in their tag, their
offset and whether they answer the text. -/
theorem stringGettersScanForTheTerminator : Obligations.StringGettersScanForTheTerminator := by
  refine ⟨scansString_of_strScan ?_ rfl fun _ => rfl, scansString_of_strScan ?_ rfl fun _ => rfl,
    scansString_of_strScan ?_ rfl fun _ => rfl, scansString_of_strScan ?_ rfl fun _ => rfl,
    scansString_of_strScan ?_ rfl fun _ => rfl, scansString_of_strScan ?_ rfl fun _ => rfl⟩
  all_goals exact decodesTo_of_row fun c hop => by simp [decodeRow, hop]

/-! ## The string setters (43_command.md R143) -/

/-- A codec operation that checks its tag and then stores in a region that ends with the body is a string
setter. -/
theorem setsString_of_strStore {op : Byte} {tag : BitVec 3} {off : Nat} {region : Config → Nat}
    {i : List Byte → Instr} (hdec : DecodesTo op fun c => i c.str)
    (htag : ∀ str, accessorTag (i str) = some tag)
    (hexec : ∀ str s, exec (i str) s = tagCheck tag s fun s =>
      complete (.done (lengthValue (storedLen (region s.cfg) str))) (strStore off (region s.cfg) str s))
    (hregion : ∀ c : Config, off + region c = c.bodyCap) (hoff : off ≤ 1) :
    SetsString op tag off region i := by
  refine ⟨hdec, fun str => codecAccessorsCheckTheTag (i str) tag (htag str), fun str s ht => ?_⟩
  rw [hexec, tagCheck_of_eq ht]
  have hfits := storedLen_lt (hregion s.cfg) hoff str
  have hbody := strStore_body off (region s.cfg) str s
  refine ⟨_, storedLen (region s.cfg) str, rfl, rfl, ⟨rfl, rfl, rfl, rfl⟩, strStore_hdr off _ str s, rfl,
    hfits, fun j hj => ?_, (hbody _).trans (if_pos rfl), fun j hj => ?_,
    done_lengthValue_reports (c := s.cfg) (by omega) [] _⟩
  · rw [State.withResp_body, hbody, if_neg (by omega), if_pos (by omega), Nat.add_sub_cancel_left]
  · rw [State.withResp_body, hbody, if_neg (by omega), if_neg (by omega)]

/-- Settles O27: each of the three is StrStore in its region, which leaves room for the NUL. -/
theorem stringSettersTruncateAndTerminate : Obligations.StringSettersTruncateAndTerminate := by
  refine ⟨setsString_of_strStore ?_ (fun _ => rfl) commandCodec.exec_setsText
      Config.cmdRegion_add_one le_rfl,
    setsString_of_strStore ?_ (fun _ => rfl) ackCodec.exec_setsText Config.cmdRegion_add_one le_rfl,
    setsString_of_strStore ?_ (fun _ => rfl) (fun _ _ => rfl) Config.noticeRegion_eq (by decide)⟩
  all_goals exact decodesTo_of_row fun c hop => by simp [decodeRow, hop]

/-! ## The code byte (43_command.md R141, R142) -/

theorem setCode_body_of_ne (cmd : Byte) (s : State) {j : Nat} (hj : j ≠ 0) :
    (setCode cmd s).body j = s.body j :=
  (s.setBody_body 0 j cmd).trans (if_neg hj)

/-- A codec operation that checks its tag and then takes the set-code step follows the set-code rule. -/
theorem setsCode_of_setCode {op : Byte} {tag : BitVec 3} {i : Byte → Instr}
    (hdec : DecodesTo op fun c => i c.a) (htag : ∀ cmd, accessorTag (i cmd) = some tag)
    (hexec : ∀ cmd s, exec (i cmd) s = tagCheck tag s fun s => complete .done (setCode cmd s)) :
    SetsCode op tag i :=
  ⟨hdec, fun cmd => codecAccessorsCheckTheTag (i cmd) tag (htag cmd), fun cmd s ht =>
    ⟨_, (hexec cmd s).trans (tagCheck_of_eq ht), ⟨rfl, rfl, rfl, rfl⟩, s.setBody_hdr 0 cmd, rfl,
      setCode_body_zero cmd s, fun _ hj => setCode_body_of_ne cmd s hj, done_reports 0 _⟩⟩

/-- Settles O25: each of the two is the set-code step after its tag check. -/
theorem setCodeWritesTheFirstBodyByte : Obligations.SetCodeWritesTheFirstBodyByte := by
  refine ⟨setsCode_of_setCode ?_ (fun _ => rfl) commandCodec.exec_setsCode,
    setsCode_of_setCode ?_ (fun _ => rfl) ackCodec.exec_setsCode⟩
  all_goals exact decodesTo_of_row fun c hop => by simp [decodeRow, hop]

/-- A codec operation that checks its tag and then takes the get-code step follows the get-code rule. -/
theorem getsCode_of_getCode {op : Byte} {tag : BitVec 3} {i : Instr}
    (hdec : DecodesTo op fun _ => i) (htag : accessorTag i = some tag)
    (hexec : ∀ s, exec i s = tagCheck tag s getCode) : GetsCode op tag i := by
  refine ⟨hdec, codecAccessorsCheckTheTag i tag htag, fun s ht hu => ?_, fun s ht hu => ?_⟩
  · rw [hexec, tagCheck_of_eq ht, getCode, if_pos (by omega), hu]
    exact raise_raises .shortFrame 0 s
  · have hcap := s.cfg.bodyCap_add_one
    have hmax := s.cfg.three_le_frameMax
    rw [hexec, tagCheck_of_eq ht, getCode, if_neg (by omega)]
    exact memRead_bodyByte_reports (i := 0) (by omega)

/-- Settles O26: the guard raises SHORT_FRAME, and past it the first body byte is read. -/
theorem getCodeReadsTheFirstBodyByte : Obligations.GetCodeReadsTheFirstBodyByte := by
  refine ⟨getsCode_of_getCode ?_ rfl commandCodec.exec_getsCode,
    getsCode_of_getCode ?_ rfl ackCodec.exec_getsCode⟩
  all_goals exact decodesTo_of_row fun c hop => by simp [decodeRow, hop]

/-! ## The response-requested flag (43_command.md R146 to R148) -/

/-- CMD_ENABLE_ACK_REQUEST on a Command frame writes the header alone. -/
theorem exec_cmdEnableAckRequest_of_type {s : State} (ht : s.type = 1) :
    exec .cmdEnableAckRequest s = complete .done (s.setHdr (s.hdr ||| 0x08#8)) := by
  unfold exec execCmdEnableAckRequest
  exact tagCheck_of_eq ht

/-- Settles O29: after the tag check the first two write RR, and the third reads it. -/
theorem commandResponseRequestedFlagIsRR : Obligations.CommandResponseRequestedFlagIsRR := by
  refine ⟨⟨?_, codecAccessorsCheckTheTag .cmdEnableAckRequest 1 rfl, fun s ht => ?_⟩,
    setsFlag_of_putFlag .responseRequested ?_ (fun _ => rfl) fun _ _ => rfl,
    readsFlag_of_getFlag .responseRequested ?_ rfl fun _ => rfl⟩
  · exact decodesTo_of_row fun c hop => by simp [decodeRow, hop]
  · rw [exec_cmdEnableAckRequest_of_type ht]
    exact complete_setHdr (s.hdr ||| 0x08#8) s
  · exact decodesTo_of_row fun c hop => by simp [decodeRow, hop, boolOf]
  · exact decodesTo_of_row fun c hop => by simp [decodeRow, hop]

end Sys2Proof.Machine
end

section
/-! PROOFS of the statements of 46_dispatch.md: PKT_RESOLVE and the header-tag row it runs. -/

namespace Sys2Proof.Machine

open Claims

/-! ## What a tag answers (46_dispatch.md R190) -/

/-- A reserved tag is raised as the cause value. -/
theorem resolveTag_of_reserved {tag : BitVec 3} (htag : 4 ≤ tag.toNat) (s : State) :
    resolveTag tag s = raise .unknownType tag.toNat s :=
  if_pos htag

/-- A tag is answered without reading or writing the memory. -/
theorem resolveTag_withMem {tag : BitVec 3} {s t : State} (m : Memory)
    (h : resolveTag tag s = .next t) : resolveTag tag (s.withMem m) = .next (t.withMem m) := by
  unfold resolveTag at h ⊢
  split at h
  case isTrue htag => cases h; exact if_pos htag
  case isFalse htag => cases h; exact if_neg htag

theorem exec_pktResolve (s : State) : exec .pktResolve s = resolveTag (headerType s.hdr) s := rfl

/-- Settles O30: the two clauses are the two answers to a tag, which is the header modulo 8. -/
theorem pktResolveClassifiesTheTag : Obligations.PktResolveClassifiesTheTag := by
  refine ⟨decodesTo_of_row fun c hop => by simp [decodeRow, hop], fun s => ?_⟩
  rw [← headerType_toNat, exec_pktResolve]
  refine ⟨fun htag => resolveTag_reports htag s, fun htag => ?_⟩
  rw [resolveTag_of_reserved htag]
  exact raise_raises .unknownType _ s

/-! ## The header-tag row of a header (30_encoding.md R61) -/

/-- The row that a header byte decodes to answers the byte's type tag. -/
theorem exec_decodeHeader (h : Byte) (s : State) :
    exec (decodeHeader h) s = resolveTag (headerType h) s := by
  by_cases hres : 4 ≤ (headerType h).toNat
  · rw [decodeHeader_reserved hres, resolveTag_of_reserved hres]
    rfl
  · have htag : headerType h = 0 ∨ headerType h = 1 ∨ headerType h = 2 ∨ headerType h = 3 := by
      bv_omega
    rcases htag with ht | ht | ht | ht
    · rw [decodeHeader_data ht, ht]; rfl
    · rw [decodeHeader_command ht, ht]; rfl
    · rw [decodeHeader_ack ht, ht]; rfl
    · rw [decodeHeader_notice ht, ht]; rfl

/-- Settles O32: PKT_RESOLVE and the row both answer the held type tag, and the answer leaves the memory
aside. -/
theorem pktResolveRunsTheHeaderRow : Obligations.PktResolveRunsTheHeaderRow := by
  refine ⟨fun s => (exec_decodeHeader s.hdr s).symm, fun s m htype t ht => ?_⟩
  rw [exec_pktResolve, htype]
  exact resolveTag_withMem m ht

end Sys2Proof.Machine
end

section
/-! PROOFS of the statements of 47_framer.md: TX_SEND, the builders, RX_LISTEN, and a frame delivered from one block to another. -/

namespace Sys2Proof.Machine

open Claims

/-! ## One radio call (10_state.md R30) -/

/-- A radio that is not silent has an answer to the next call. -/
theorem exists_nextAnswer_of_radioSpeaks {s : State} (h : RadioSpeaks s) :
    ∃ a, s.nextAnswer = some a := by
  unfold State.nextAnswer
  split
  case h_1 a left _ => exact ⟨a, rfl⟩
  case h_2 left hin => exact absurd (congrArg List.head? hin) h
  case h_3 => exact ⟨_, rfl⟩

/-- The next answer is the scripted one where the state scripts one. -/
theorem given_of_nextAnswer {s : State} {a : RadioAnswer} (h : s.nextAnswer = some a) : Given s a := by
  intro a' ha'
  obtain ⟨left, hin⟩ := List.head?_eq_some_iff.1 ha'
  exact Option.some_inj.1 (h.symm.trans (nextAnswer_of_scripted hin))

/-- A call made where the outside is as in `s`, and nothing outside changed after it, is the one call
since `s`. -/
theorem calledOnce_of_called {s u t : State} {c : RadioCall} {a : RadioAnswer} (hu : SameOutside s u)
    (ha : u.nextAnswer = some a) (ht : SameOutside (u.called c) t) : CalledOnce s t c a := by
  obtain ⟨hcfg, hport, hin, hout⟩ := hu
  obtain ⟨htcfg, htport, htin, htout⟩ := ht
  have hgiven : Given s a := fun a' ha' => given_of_nextAnswer ha a' (by rwa [hin])
  exact ⟨htcfg.trans hcfg, htport.trans hport, by rw [htout, State.called_radioOut, hout],
    by rw [htin, State.called_radioIn, hin], hgiven⟩

/-- A length within the frame is reported exactly: it fits the 16 bits of `resp.value` (00_scope.md R6). -/
theorem done_frameLength_reports {n : Nat} {c : Config} (hn : n ≤ c.frameMax) (rstat : RStat)
    (s : State) : Reports (s.withResp (.done (lengthValue n) [] rstat)) n [] rstat := by
  have hmax := c.frameMax_le
  have hvalue : (lengthValue n).toNat = n := lengthValue_toNat (by omega)
  exact ⟨rfl, hvalue, rfl, rfl, rfl⟩

/-- Sending `w` bytes that lie in the frame buffer completes if the radio answers. -/
theorem sendFrame_completes {w : Nat} {s : State} (hw : w ≤ s.cfg.frameMax) (hs : RadioSpeaks s)
    (panId dst : Word16) (v : Nat) : ∃ t, sendFrame panId dst w v s = .next t := by
  obtain ⟨a, ha⟩ := exists_nextAnswer_of_radioSpeaks
    (s := s.withDraws (s.mem.readBytes w 0 s.draws).2) hs
  unfold sendFrame
  rw [memRead_of_le (by omega), radioCall_of_some ha]
  exact ⟨_, rfl⟩

/-! ## TX_SEND (47_framer.md R200) -/

/-- Settles O33: the bytes read are the header and the body bytes as held, and the answer of the one call
is reported. -/
theorem txSendHandsTheFrameToTheRadio : Obligations.TxSendHandsTheFrameToTheRadio := by
  refine ⟨decodesTo_of_row fun c hop => by simp [decodeRow, hop], fun panId dst s hu hs => ?_⟩
  have hcap := s.cfg.bodyCap_add_one
  have hfit : s.ulen + 1 ≤ s.cfg.frameMax := by omega
  obtain ⟨t, ht⟩ := sendFrame_completes hfit hs panId dst (s.ulen + 1)
  obtain ⟨bytes, d, a, hread, -, ha, rfl⟩ := sendFrame_next ht
  obtain rfl : bytes = (s.mem.readBytes (s.ulen + 1) 0 s.draws).1 := congrArg Prod.fst hread
  refine ⟨_, a, _, ht,
    calledOnce_of_called (u := s.withDraws d) ⟨rfl, rfl, rfl, rfl⟩ ha ⟨rfl, rfl, rfl, rfl⟩,
    ⟨fun _ => rfl, rfl⟩, s.mem.readBytes_length _ _ _, by rw [s.readBytes_frame]; rfl,
    fun j v hj hv => Memory.readBytes_getElem? (Nat.succ_lt_succ hj) ?_,
    done_frameLength_reports hfit _ _⟩
  rwa [Nat.zero_add, Nat.add_comm]

/-! ## The builders (47_framer.md R201) -/

/-- From `s` to `u` the frame was built: this header and these body bytes, with the rest of the body and
everything outside the frame as they were. -/
structure Built (s u : State) (hdr : Byte) (content : List Byte) : Prop where
  outside : SameOutside s u
  hdr_eq : u.hdr = hdr
  ulen_eq : u.ulen = content.length
  fits : content.length ≤ s.cfg.bodyCap
  body_eq (j : Nat) : u.body j = if j < content.length then content[j]? else s.body j

namespace Built
variable {s u : State} {hdr : Byte} {content : List Byte}

/-- Another header leaves the rest of the frame built. -/
theorem setHdr (h : Built s u hdr content) (b : Byte) : Built s (u.setHdr b) b content where
  outside := h.outside
  hdr_eq := u.setHdr_hdr b
  ulen_eq := h.ulen_eq
  fits := h.fits
  body_eq j := (u.setHdr_body b j).trans (h.body_eq j)

/-- The frame buffer holds the header and the content from address 0 on. -/
theorem read_eq (h : Built s u hdr content) {i : Nat} (hi : i < (hdr :: content).length) :
    u.mem.read i = (hdr :: content)[i]? := by
  cases i with
  | zero => rw [u.read_zero, h.hdr_eq]; rfl
  | succ j =>
    have hj : j < content.length := Nat.lt_of_succ_lt_succ hi
    have hbody := h.body_eq j
    rwa [if_pos hj, State.body, Nat.add_comm] at hbody

/-- Reading the built frame gives its header and content, and draws nothing. -/
theorem readBytes_eq (h : Built s u hdr content) :
    u.mem.readBytes (content.length + 1) 0 u.draws = (hdr :: content, u.draws) :=
  Memory.readBytes_eq (vs := hdr :: content) u.draws fun i hi => by
    rw [Nat.zero_add]; exact h.read_eq hi

/-- Sending the built frame hands exactly its bytes to the radio and leaves it in the buffer. -/
theorem builtAndSent (h : Built s u hdr content) {panId dst : Word16} {value : Nat} {t : State}
    (hvalue : value ≤ content.length)
    (ht : sendFrame panId dst (content.length + 1) value u = .next t) :
    BuiltAndSent s t panId dst hdr content value := by
  obtain ⟨bytes, d, a, hread, -, ha, rfl⟩ := sendFrame_next ht
  obtain ⟨rfl, rfl⟩ := Prod.mk.inj (hread.trans h.readBytes_eq)
  have hcap := s.cfg.bodyCap_add_one
  have hfits := h.fits
  exact ⟨h.hdr_eq, h.ulen_eq, h.ulen_eq.trans_le hfits, h.body_eq, a,
    calledOnce_of_called h.outside ha ⟨rfl, rfl, rfl, rfl⟩,
    done_frameLength_reports (c := s.cfg) (by omega) _ _⟩

end Built

/-- The instruction builds this frame and then performs the body of TX_SEND (47_framer.md R201). -/
def BuildsAndSends (i : Instr) (s : State) (panId dst : Word16) (hdr : Byte) (content : List Byte)
    (value : Nat) : Prop :=
  value ≤ content.length ∧
    ∃ u, Built s u hdr content ∧ exec i s = sendFrame panId dst (content.length + 1) value u

namespace BuildsAndSends
variable {i : Instr} {s t : State} {panId dst : Word16} {hdr : Byte} {content : List Byte} {value : Nat}

/-- Where a builder completes, it has built and sent its frame. -/
theorem builtAndSent (h : BuildsAndSends i s panId dst hdr content value) (ht : exec i s = .next t) :
    BuiltAndSent s t panId dst hdr content value := by
  obtain ⟨hvalue, u, hu, hexec⟩ := h
  exact hu.builtAndSent hvalue (hexec.symm.trans ht)

/-- With a radio that answers a builder completes. -/
theorem exists_builtAndSent (h : BuildsAndSends i s panId dst hdr content value) (hs : RadioSpeaks s) :
    ∃ t, exec i s = .next t ∧ BuiltAndSent s t panId dst hdr content value := by
  obtain ⟨hvalue, u, hu, hexec⟩ := h
  obtain ⟨hcfg, -, hin, -⟩ := hu.outside
  have hcap := s.cfg.bodyCap_add_one
  have hfits := hu.fits
  have hspeaks : RadioSpeaks u := by rwa [RadioSpeaks, hin]
  obtain ⟨t, ht⟩ := sendFrame_completes (w := content.length + 1) (by rw [hcfg]; omega) hspeaks
    panId dst value
  exact ⟨t, hexec.trans ht, hu.builtAndSent hvalue ht⟩

end BuildsAndSends

/-! ## TX_SEND_DATA (47_framer.md R202) -/

/-- The header of the data frame: FRAG on request or for a cut string. -/
theorem buildData_hdr_eq_ite (fragment : Bool) (str : List Byte) (s : State) :
    (buildData fragment str s).hdr =
      if fragment = true ∨ s.cfg.dataCap < str.length then 0x10#8 else 0x00#8 := by
  have hflag : (fragment || decide (s.cfg.dataCap < str.length)) =
      decide (fragment = true ∨ s.cfg.dataCap < str.length) := by
    cases fragment <;> simp
  rw [buildData_hdr, hflag]
  split
  case isTrue hfrag => rw [decide_eq_true hfrag]; rfl
  case isFalse hfrag => rw [decide_eq_false hfrag]; rfl

theorem length_take_dataCap (c : Config) (str : List Byte) :
    (str.take c.dataCap).length = dataLen c str := by
  rw [List.length_take, dataLen, Nat.min_comm]

theorem buildData_built (fragment : Bool) (str : List Byte) (s : State) :
    Built s (buildData fragment str s)
      (if fragment = true ∨ s.cfg.dataCap < str.length then 0x10#8 else 0x00#8)
      (str.take s.cfg.dataCap) where
  outside := ⟨rfl, rfl, rfl, rfl⟩
  hdr_eq := buildData_hdr_eq_ite fragment str s
  ulen_eq := (length_take_dataCap s.cfg str).symm
  fits := (length_take_dataCap s.cfg str).trans_le (dataLen_le_bodyCap s.cfg str)
  body_eq j := by
    rw [length_take_dataCap, buildData, State.setHdr_body, dataStore_body, variantInit_cfg,
      variantInit_body]
    split
    case isTrue hj =>
      exact (List.getElem?_take_of_lt (hj.trans_le (dataLen_le_bodyCap s.cfg str))).symm
    case isFalse => rfl

theorem txSendData_buildsAndSends (panId dst : Word16) (fragment : Bool) (str : List Byte) (s : State) :
    BuildsAndSends (.txSendData panId dst fragment str) s panId dst
      (if fragment = true ∨ s.cfg.dataCap < str.length then 0x10#8 else 0x00#8)
      (str.take s.cfg.dataCap) (min str.length s.cfg.dataCap) :=
  have hlen := length_take_dataCap s.cfg str
  ⟨hlen.ge, _, buildData_built fragment str s, by rw [hlen]; rfl⟩

/-- Settles O34: TX_SEND_DATA is a builder of the data frame. -/
theorem txSendDataSendsOneDataFrame : Obligations.TxSendDataSendsOneDataFrame :=
  ⟨decodesTo_of_row fun c hop => by simp [decodeRow, hop, boolOf], fun panId dst fragment str s hs =>
    (txSendData_buildsAndSends panId dst fragment str s).exists_builtAndSent hs⟩

/-! ## The builders of text frames (47_framer.md R203 to R206) -/

/-- The stored text and its NUL are one byte longer than what the string store answers. -/
theorem length_storedText (region : Nat) (str : List Byte) :
    ((cstr str).take (region - 1) ++ [nul]).length = storedLen region str + 1 := by
  rw [List.length_append, ← take_storedLen, strStore_length]
  rfl

/-- The body after `StrStore`, with the text and its NUL as one run of bytes. -/
theorem strStore_body_eq_storedText (off region : Nat) (str : List Byte) (s : State) (j : Nat) :
    (strStore off region str s).body j =
      if off ≤ j ∧ j < off + storedLen region str + 1 then
        ((cstr str).take (region - 1) ++ [nul])[j - off]?
      else s.body j := by
  have hlen := strStore_length region str
  rw [strStore_body, ← take_storedLen]
  rcases Nat.lt_trichotomy j (off + storedLen region str) with hlt | rfl | hgt
  · rw [if_neg (by omega)]
    by_cases hoff : off ≤ j
    · rw [if_pos ⟨hoff, hlt⟩, if_pos (by omega), List.getElem?_append_left (by omega),
        List.getElem?_take_of_lt (by omega)]
    · rw [if_neg (by omega), if_neg (by omega)]
  · rw [if_pos rfl, if_pos (by omega), Nat.add_sub_cancel_left,
      List.getElem?_append_right (by omega), hlen, Nat.sub_self]
    rfl
  · rw [if_neg (by omega), if_neg (by omega), if_neg (by omega)]

/-- The body of a Command or Ack frame: the code, the text and its NUL (47_framer.md R203, R205). -/
def codeContent (c : Config) (cmd : Byte) (str : List Byte) : List Byte :=
  cmd :: ((cstr str).take c.cmdStrMax ++ [nul])

/-- The body of a Notice frame: the text and its NUL (47_framer.md R206). -/
def noticeContent (c : Config) (str : List Byte) : List Byte :=
  (cstr str).take c.noticeStrMax ++ [nul]

theorem length_codeContent (c : Config) (cmd : Byte) (str : List Byte) :
    (codeContent c cmd str).length = storedLen c.cmdRegion str + 2 :=
  congrArg Nat.succ (length_storedText c.cmdRegion str)

theorem length_noticeContent (c : Config) (str : List Byte) :
    (noticeContent c str).length = storedLen c.noticeRegion str + 1 :=
  length_storedText c.noticeRegion str

/-- The frame of a Command or Ack builder before any flag. -/
theorem buildCode_built (tag : BitVec 3) (cmd : Byte) (str : List Byte) (s : State) :
    Built s (buildCode tag cmd str s) (tag.setWidth 8) (codeContent s.cfg cmd str) := by
  have hlen := length_codeContent s.cfg cmd str
  have hlt := storedLen_lt s.cfg.cmdRegion_add_one le_rfl str
  refine ⟨⟨rfl, rfl, rfl, rfl⟩, buildCode_hdr tag cmd str s, ?_, by omega, fun j => ?_⟩
  · rw [hlen, buildCode, strStore_ulen]
    omega
  · rw [hlen, buildCode, strStore_body_eq_storedText]
    cases j with
    | zero => rw [if_neg (by omega), State.setBody_body, if_pos rfl, if_pos (by omega)]; rfl
    | succ j =>
      by_cases hj : j < storedLen s.cfg.cmdRegion str + 1
      · rw [if_pos (by omega), if_pos (by omega)]
        rfl
      · rw [if_neg (by omega), if_neg (by omega), State.setBody_body, if_neg (by omega),
          variantInit_body]

/-- The frame of the Notice builder. -/
theorem buildNotice_built (str : List Byte) (s : State) :
    Built s (strStore 0 s.cfg.noticeRegion str (variantInit 3 s)) 0x03#8 (noticeContent s.cfg str) := by
  have hlen := length_noticeContent s.cfg str
  have hlt := storedLen_lt s.cfg.noticeRegion_eq (Nat.zero_le 1) str
  refine ⟨⟨rfl, rfl, rfl, rfl⟩, (strStore_hdr 0 _ str _).trans (variantInit_hdr 3 s), ?_, by omega,
    fun j => ?_⟩
  · rw [hlen, strStore_ulen, Nat.zero_add]
  · rw [hlen, strStore_body_eq_storedText, variantInit_body, Nat.zero_add, Nat.sub_zero]
    simp only [Nat.zero_le, true_and]
    rfl

section
variable (panId dst : Word16) (cmd : Byte) (str : List Byte) (s : State)

theorem txSendCommand_buildsAndSends :
    BuildsAndSends (.txSendCommand panId dst cmd str) s panId dst 0x01#8 (codeContent s.cfg cmd str)
      (storedLen s.cfg.cmdRegion str) :=
  have hlen := length_codeContent s.cfg cmd str
  ⟨by omega, _, buildCode_built 1 cmd str s, by rw [hlen]; rfl⟩

theorem txSendCommandWithAck_buildsAndSends :
    BuildsAndSends (.txSendCommandWithAck panId dst cmd str) s panId dst 0x09#8
      (codeContent s.cfg cmd str) (storedLen s.cfg.cmdRegion str) := by
  have hlen := length_codeContent s.cfg cmd str
  have hbuilt := (buildCode_built 1 cmd str s).setHdr ((buildCode 1 cmd str s).hdr ||| 0x08#8)
  rw [buildCode_hdr] at hbuilt
  exact ⟨by omega, _, hbuilt, by rw [hlen, ← buildCode_hdr 1 cmd str s]; rfl⟩

theorem txSendAck_buildsAndSends :
    BuildsAndSends (.txSendAck panId dst cmd str) s panId dst 0x02#8 (codeContent s.cfg cmd str)
      (storedLen s.cfg.cmdRegion str) :=
  have hlen := length_codeContent s.cfg cmd str
  ⟨by omega, _, buildCode_built 2 cmd str s, by rw [hlen]; rfl⟩

theorem txSendNotice_buildsAndSends :
    BuildsAndSends (.txSendNotice panId dst str) s panId dst 0x03#8 (noticeContent s.cfg str)
      (storedLen s.cfg.noticeRegion str) :=
  have hlen := length_noticeContent s.cfg str
  ⟨by omega, _, buildNotice_built str s, by rw [hlen]; rfl⟩

end

/-- Settles O35: the three are builders of the same body under different headers. -/
theorem txCommandAndAckBuildersSendOneFrame : Obligations.TxCommandAndAckBuildersSendOneFrame := by
  refine ⟨decodesTo_of_row fun c hop => by simp [decodeRow, hop],
    decodesTo_of_row fun c hop => by simp [decodeRow, hop],
    decodesTo_of_row fun c hop => by simp [decodeRow, hop],
    fun panId dst cmd str s hs content value hcontent hvalue => ?_⟩
  subst hcontent hvalue
  exact ⟨(txSendCommand_buildsAndSends panId dst cmd str s).exists_builtAndSent hs,
    (txSendCommandWithAck_buildsAndSends panId dst cmd str s).exists_builtAndSent hs,
    (txSendAck_buildsAndSends panId dst cmd str s).exists_builtAndSent hs⟩

/-- Settles O36: TX_SEND_NOTICE is a builder of the notice frame. -/
theorem txSendNoticeSendsOneNoticeFrame : Obligations.TxSendNoticeSendsOneNoticeFrame :=
  ⟨decodesTo_of_row fun c hop => by simp [decodeRow, hop], fun panId dst str s hs =>
    (txSendNotice_buildsAndSends panId dst str s).exists_builtAndSent hs⟩

/-! ## RX_LISTEN (47_framer.md R207) -/

/-- Every answer of the radio ends RX_LISTEN. -/
theorem receive_completes (r : Received) (s : State) : ∃ t, receive r s = .next t := by
  unfold receive
  split
  · exact ⟨_, rfl⟩
  · split
    · exact ⟨_, rfl⟩
    · exact ⟨_, rfl⟩

theorem memWrite_zero_read (s : State) (bytes : List Byte) (i : Nat) :
    (s.memWrite 0 bytes).mem.read i = if i < bytes.length then bytes[i]? else s.mem.read i := by
  simp

/-- Settles O37: the three clauses are the three answers of `receive`, whose conditions on the length
exclude each other. -/
theorem rxListenCommitsOnlyAGoodReceive : Obligations.RxListenCommitsOnlyAGoodReceive := by
  refine ⟨decodesTo_of_row fun c hop => by simp [decodeRow, hop], fun s hs => ?_⟩
  obtain ⟨a, ha⟩ := exists_nextAnswer_of_radioSpeaks hs
  obtain ⟨t, ht⟩ := receive_completes a.received (s.called (.readData s.cfg.frameMax))
  have hrun : exec .rxListen s = .next t := (radioCall_of_some ha).trans ht
  have hcall {t : State} (hout : SameOutside (s.called (.readData s.cfg.frameMax)) t) :
      CalledOnce s t (.readData s.cfg.frameMax) a :=
    calledOnce_of_called ⟨rfl, rfl, rfl, rfl⟩ ha hout
  have hmax := s.cfg.three_le_frameMax
  obtain ⟨hnone, rfl⟩ | ⟨hmany, rfl⟩ | ⟨hpos, hfits, rfl⟩ := receive_next ht
  · exact ⟨_, a, hrun, hcall ⟨rfl, rfl, rfl, rfl⟩,
      fun _ => ⟨⟨fun _ => rfl, rfl⟩, rfl, rfl, rfl, rfl, rfl⟩, fun hgt => by omega,
      fun hge => by omega⟩
  · rw [State.called_cfg] at hmany
    exact ⟨_, a, hrun, hcall ⟨rfl, rfl, rfl, rfl⟩, fun hle => by omega,
      fun _ => ⟨⟨fun _ => rfl, rfl⟩, rfl, rfl, rfl, rfl, rfl⟩, fun _ hle => by omega⟩
  · have hlen := received_length_eq hpos
    rw [State.called_cfg] at hfits
    refine ⟨_, a, hrun, hcall ⟨rfl, rfl, rfl, rfl⟩, fun hle => by omega, fun hgt => by omega,
      fun _ _ => ⟨memWrite_zero_read _ _, ?_,
        done_frameLength_reports (c := s.cfg) (by omega) .none _⟩⟩
    rw [State.withResp_ulen, State.withUlen_ulen]
    omega

/-! ## A frame heard (47_framer.md R207, R209) -/

section
variable (first : Byte) (rest : List Byte) (s : State)

theorem heard_hdr : (heard first rest s).hdr = first := by
  have hread := heard_read first rest s (i := 0) (Nat.succ_pos _)
  rw [State.read_zero] at hread
  exact Option.some_inj.1 hread

theorem heard_type : (heard first rest s).type = headerType first :=
  congrArg headerType (heard_hdr first rest s)

theorem heard_body {j : Nat} (hj : j < rest.length) : (heard first rest s).body j = rest[j]? := by
  rw [State.body, Nat.add_comm, heard_read first rest s (Nat.succ_lt_succ hj),
    List.getElem?_cons_succ]

end

theorem execAll_pair {i j : Instr} {s t u : State} (hi : exec i s = .next t) (hj : exec j t = .next u) :
    execAll [i, j] s = .next u := by
  simp only [execAll, hi, hj]

/-- What a builder handed to the radio is what RX_LISTEN commits where it is delivered. -/
theorem exec_rxListen_of_delivered {s t r : State} {panId dst : Word16} {hdr : Byte}
    {content : List Byte} {value : Nat} (hsent : BuiltAndSent s t panId dst hdr content value)
    (hdel : Delivers t r s.radioOut) (hcfg : r.cfg = s.cfg) :
    exec .rxListen r = .next (heard hdr content r) ∧ content.length + 1 ≤ r.cfg.frameMax := by
  obtain ⟨-, hulen, hfits, -, a, ⟨-, -, hout, -, -⟩, -⟩ := hsent
  obtain ⟨panId', dst', first, rest, len, a', left, hout', hin, hrecv⟩ := hdel
  have hcall := List.append_cancel_left (hout.symm.trans hout')
  injection hcall with hsame
  injection hsame with _ _ hbytes
  obtain ⟨rfl, rfl⟩ := List.cons.inj hbytes
  have hcap := s.cfg.bodyCap_add_one
  have hfit : content.length + 1 ≤ r.cfg.frameMax := by rw [hcfg]; omega
  exact ⟨exec_rxListen_of_frame (nextAnswer_of_scripted hin) hrecv hfit, hfit⟩

/-- `StrScan` over a frame heard gives the text before its NUL. -/
theorem getString_heard {pre text : List Byte} (hn : nul ∉ text) (hdr : Byte) {r : State}
    (hfit : (pre ++ (text ++ [nul])).length + 1 ≤ r.cfg.frameMax) :
    getString pre.length (heard hdr (pre ++ (text ++ [nul])) r) =
      .next ((heard hdr (pre ++ (text ++ [nul])) r).withResp
        (.done (lengthValue text.length) text)) := by
  have hbody (j : Nat) (hj : j < text.length + 1) :
      (heard hdr (pre ++ (text ++ [nul])) r).body (pre.length + j) = (text ++ [nul])[j]? := by
    rw [heard_body hdr _ r (by simpa using hj), List.getElem?_append_right (by omega),
      Nat.add_sub_cancel_left]
  refine strScan_text hn (fun j hj => ?_) ?_ ?_ hfit fun bytes k => .done (lengthValue k) bytes
  · rw [hbody j (by omega), List.getElem?_append_left hj]
  · rw [hbody _ (by omega), List.getElem?_concat_length]
  · show _ < (pre ++ (text ++ [nul])).length
    simp only [List.length_append, List.length_singleton]
    omega

/-- A codec's flag query answers 1 exactly where the header bit is set. -/
theorem exec_of_readsFlag {op : Byte} {tag : BitVec 3} {bit : Nat} {i : Instr}
    (h : ReadsFlag op tag bit i) {s : State} (ht : s.type = tag) :
    ∃ t, exec i s = .next t ∧ (t.resp.value = 1#16 ↔ s.hdr.getLsbD bit = true) := by
  obtain ⟨-, -, hreads⟩ := h
  obtain ⟨t, hexec, -, -, -, hvalue, -⟩ := hreads s ht
  refine ⟨t, hexec, ?_⟩
  rw [← BitVec.toNat_inj, hvalue]
  split <;> simp_all

/-! ## Text frames delivered (47_framer.md R203 to R207, R209) -/

/-- A delivered frame with a code and a text reads at the codec of its tag as what was sent. -/
theorem CodeTextCodec.delivered {tag : BitVec 3} {init getsText getsCode : Instr}
    {setsCode : Byte → Instr} {setsText : List Byte → Instr}
    (hc : CodeTextCodec tag init setsCode setsText getsText getsCode) {s t r : State}
    {panId dst : Word16} {hdr cmd : Byte} {str : List Byte} {value : Nat}
    (hsent : BuiltAndSent s t panId dst hdr (codeContent s.cfg cmd str) value)
    (htag : headerType hdr = tag) (hdel : Delivers t r s.radioOut) (hcfg : r.cfg = s.cfg) :
    ∃ u v, execAll [.rxListen, getsText] r = .next u ∧
      u.resp.bytes = (cstr str).take s.cfg.cmdStrMax ∧
      exec getsCode u = .next v ∧ v.resp.value.toNat = cmd.toNat ∧ v.hdr = hdr := by
  obtain ⟨hlisten, hfit⟩ := exec_rxListen_of_delivered hsent hdel hcfg
  have htype := (heard_type hdr (codeContent s.cfg cmd str) r).trans htag
  have hnul : nul ∉ (cstr str).take s.cfg.cmdStrMax :=
    fun h => nul_notMem_cstr str (List.mem_of_mem_take h)
  have htext := ((hc.exec_getsText _).trans (tagCheck_of_eq htype)).trans
    (getString_heard (pre := [cmd]) hnul hdr hfit)
  have hcode := ((hc.exec_getsCode _).trans (tagCheck_of_eq htype)).trans
    (getCode_written (heard_body hdr _ r (Nat.succ_pos _)) (Nat.succ_pos _))
  exact ⟨_, _, execAll_pair hlisten htext, rfl,
    (responsesDependOnTheTransactionAlone getsCode _ _).trans hcode,
    BitVec.toNat_setWidth_of_le (by decide), heard_hdr hdr _ r⟩

/-- A delivered Command frame reads as sent, and answers whether RR is set. -/
theorem delivered_command {s t r : State} {panId dst : Word16} {hdr cmd : Byte} {str : List Byte}
    {value : Nat} (hsent : BuiltAndSent s t panId dst hdr (codeContent s.cfg cmd str) value)
    (htag : headerType hdr = 1) (hdel : Delivers t r s.radioOut) (hcfg : r.cfg = s.cfg) :
    ∃ u v w, execAll [.rxListen, .cmdGetParam] r = .next u ∧
      u.resp.bytes = (cstr str).take s.cfg.cmdStrMax ∧
      exec .cmdGetCode u = .next v ∧ v.resp.value.toNat = cmd.toNat ∧
      exec .cmdIsResponseRequested v = .next w ∧
      (w.resp.value = 1#16 ↔ hdr.getLsbD 3 = true) := by
  obtain ⟨u, v, hu, hbytes, hv, hcode, hhdr⟩ := commandCodec.delivered hsent htag hdel hcfg
  obtain ⟨-, -, hreads⟩ := commandResponseRequestedFlagIsRR
  obtain ⟨w, hw, hvalue⟩ := exec_of_readsFlag hreads (s := v) (by rw [State.type, hhdr, htag])
  exact ⟨u, v, w, hu, hbytes, hv, hcode, hw, hhdr ▸ hvalue⟩

/-- A delivered Notice frame reads as sent. -/
theorem delivered_notice {s t r : State} {panId dst : Word16} {str : List Byte} {value : Nat}
    (hsent : BuiltAndSent s t panId dst 0x03#8 (noticeContent s.cfg str) value)
    (hdel : Delivers t r s.radioOut) (hcfg : r.cfg = s.cfg) :
    ∃ u, execAll [.rxListen, .ntcGet] r = .next u ∧
      u.resp.bytes = (cstr str).take s.cfg.noticeStrMax := by
  obtain ⟨hlisten, hfit⟩ := exec_rxListen_of_delivered hsent hdel hcfg
  have htype := heard_type 0x03#8 (noticeContent s.cfg str) r
  have hnul : nul ∉ (cstr str).take s.cfg.noticeStrMax :=
    fun h => nul_notMem_cstr str (List.mem_of_mem_take h)
  have htext : exec .ntcGet (heard 0x03#8 (noticeContent s.cfg str) r) = _ :=
    (tagCheck_of_eq htype).trans (getString_heard (pre := []) hnul 0x03#8 hfit)
  exact ⟨_, execAll_pair hlisten htext, rfl⟩

/-- Settles O52: each builder sends what the codec of its tag reads back, and the two Command builders
differ in RR, which tells them apart. -/
theorem deliveredTextFramesReadAsSent : Obligations.DeliveredTextFramesReadAsSent := by
  intro s t r panId dst cmd str hcfg hdel
  refine ⟨fun hcommand => ?_, fun hack => ?_, fun hnotice => ?_⟩
  · have hasked := txSendCommandWithAck_buildsAndSends panId dst cmd str s
    rcases hcommand with hplain | hmarked
    · have hsent := (txSendCommand_buildsAndSends panId dst cmd str s).builtAndSent hplain
      obtain ⟨u, v, w, hu, hbytes, hv, hcode, hw, hvalue⟩ := delivered_command hsent rfl hdel hcfg
      have hnot : exec (.txSendCommandWithAck panId dst cmd str) s ≠ .next t := fun hmarked => by
        obtain ⟨hhdr, -⟩ := hsent
        obtain ⟨hhdr', -⟩ := hasked.builtAndSent hmarked
        exact absurd (hhdr.symm.trans hhdr') (by decide)
      exact ⟨u, v, w, hu, hbytes, hv, hcode, hw, hvalue.trans (iff_of_false (by decide) hnot)⟩
    · obtain ⟨u, v, w, hu, hbytes, hv, hcode, hw, hvalue⟩ :=
        delivered_command (hasked.builtAndSent hmarked) rfl hdel hcfg
      exact ⟨u, v, w, hu, hbytes, hv, hcode, hw, hvalue.trans (iff_of_true rfl hmarked)⟩
  · have hsent := (txSendAck_buildsAndSends panId dst cmd str s).builtAndSent hack
    obtain ⟨u, v, hu, hbytes, hv, hcode, -⟩ := ackCodec.delivered hsent rfl hdel hcfg
    exact ⟨u, v, hu, hbytes, hv, hcode⟩
  · exact delivered_notice ((txSendNotice_buildsAndSends panId dst str s).builtAndSent hnotice) hdel
      hcfg

/-! ## Data frames delivered (47_framer.md R202, R207, R209) -/

/-- DATA_GET on a Data frame heard gives its body. -/
theorem exec_dataGet_heard {hdr : Byte} {content : List Byte} {r : State} (htag : headerType hdr = 0)
    (hfit : content.length + 1 ≤ r.cfg.frameMax) :
    exec .dataGet (heard hdr content r) =
      .next ((heard hdr content r).withResp (.done (lengthValue content.length) content)) := by
  have hcap := r.cfg.bodyCap_add_one
  have hulen : (heard hdr content r).ulen ≤ (heard hdr content r).cfg.bodyCap := by
    show content.length ≤ r.cfg.bodyCap
    omega
  have hread : (heard hdr content r).mem.readBytes content.length 1 (heard hdr content r).draws =
      (content, (heard hdr content r).draws) :=
    Memory.readBytes_eq _ fun j hj => heard_body hdr content r hj
  have hget := exec_dataGet_of_type ((heard_type hdr content r).trans htag) hulen
  rw [show (heard hdr content r).ulen = content.length from rfl, hread] at hget
  exact hget

/-- Settles O53: the builder sends the cut data, which DATA_GET reads back, and its header holds FRAG. -/
theorem deliveredDataFramesReadAsSent : Obligations.DeliveredDataFramesReadAsSent := by
  intro s t r panId dst fragment str hcfg hexec hdel
  have hsent := (txSendData_buildsAndSends panId dst fragment str s).builtAndSent hexec
  obtain ⟨hlisten, hfit⟩ := exec_rxListen_of_delivered hsent hdel hcfg
  have htag : headerType
      (if fragment = true ∨ s.cfg.dataCap < str.length then 0x10#8 else 0x00#8) = 0 := by
    split <;> rfl
  have hget := exec_dataGet_heard htag hfit
  obtain ⟨v, hv, hvalue⟩ := exec_of_readsFlag dataFragmentedFlagIsFrag.2
    ((heard_type _ (str.take s.cfg.dataCap) r).trans htag)
  refine ⟨_, v, execAll_pair hlisten hget, rfl,
    (responsesDependOnTheTransactionAlone .dataIsFragmented _ _).trans hv, hvalue.trans ?_⟩
  rw [heard_hdr]
  split
  case isTrue hfrag => exact iff_of_true rfl hfrag
  case isFalse hfrag => exact iff_of_false (by decide) hfrag

end Sys2Proof.Machine
end

section
/-! PROOFS of the statements of 48_radio_passthrough.md: each operation forwards one radio call. -/

namespace Sys2Proof.Machine

open Claims

/-- A radio call whose answer is reported alone forwards: the call is the only change outside, and the
response registers the only change inside. -/
theorem forwards_of_radioCall {op : Byte} {decoded : Command → Instr} {i : Instr} {call : RadioCall}
    {answer : RadioAnswer → RStat} (hdec : DecodesTo op decoded)
    (hexec : ∀ s, exec i s = radioCall call s fun a s' => complete (.done 0 [] (answer a)) s') :
    Forwards op decoded i call answer := by
  refine ⟨hdec, fun s hs => ?_⟩
  obtain ⟨a, ha⟩ := exists_nextAnswer_of_radioSpeaks hs
  have hnext : exec i s = .next ((s.called call).withResp (.done 0 [] (answer a))) :=
    (hexec s).trans (radioCall_of_some ha)
  have honce : CalledOnce s ((s.called call).withResp (.done 0 [] (answer a))) call a :=
    calledOnce_of_called (u := s) ⟨rfl, rfl, rfl, rfl⟩ ha ⟨rfl, rfl, rfl, rfl⟩
  exact ⟨_, a, hnext, honce, ⟨fun _ => rfl, rfl⟩, rfl, rfl, rfl, rfl, rfl⟩

/-- Settles O39: each of the eleven is a row of the operation map whose meaning is its radio call with the
answer reported. -/
theorem radioOperationsForwardOneCall : Obligations.RadioOperationsForwardOneCall := by
  refine ⟨forwards_of_radioCall ?init fun _ => rfl,
    fun _ _ _ _ => forwards_of_radioCall ?begin fun _ => rfl,
    forwards_of_radioCall ?close fun _ => rfl,
    forwards_of_radioCall ?rxEnable fun _ => rfl,
    forwards_of_radioCall ?rxDisable fun _ => rfl,
    forwards_of_radioCall ?getSendMode fun _ => rfl,
    fun _ _ => forwards_of_radioCall ?setSendMode fun _ => rfl,
    fun _ => forwards_of_radioCall ?setAckReq fun _ => rfl,
    fun _ => forwards_of_radioCall ?setBroadcastEnb fun _ => rfl,
    fun _ => forwards_of_radioCall ?setPromiscuous fun _ => rfl,
    forwards_of_radioCall ?getMyAddress fun _ => rfl⟩
  case setAckReq | setBroadcastEnb | setPromiscuous =>
    exact decodesTo_of_row fun c hop => by simp [decodeRow, hop, boolOf]
  all_goals exact decodesTo_of_row fun c hop => by simp [decodeRow, hop]

end Sys2Proof.Machine
end

section
/-! PROOFS of the statements of 60_exceptions.md: no command stops the block, a raised status leaves the frame and records its cause, and which operations report which status. -/

namespace Sys2Proof.Machine

open Claims

/-! ## What each shared operation needs to complete (60_exceptions.md R302) -/

theorem complete_completes (r : Resp) (s : State) : Completes (complete r s) := ⟨_, rfl⟩

theorem raise_completes (e : Status) (info : Int) (s : State) : Completes (raise e info s) := ⟨_, rfl⟩

/-- Refused by a raised status, or let through to what completes. -/
theorem guard_completes {p : Prop} [Decidable p] {e : Status} {info : Int} {s : State} {o : Result}
    (ho : ¬ p → Completes o) : Completes (if p then raise e info s else o) := by
  split
  · exact raise_completes e info s
  · exact ho ‹_›

theorem tagCheck_completes {tag : BitVec 3} {s : State} {k : State → Result} (hk : Completes (k s)) :
    Completes (tagCheck tag s k) := by
  unfold tagCheck
  split
  · exact hk
  · exact raise_completes _ _ s

theorem memRead_completes {s : State} {addr n : Nat} {k : List Byte → State → Result}
    (h : addr + n ≤ s.cfg.frameMax) (hk : ∀ bytes s', Completes (k bytes s')) :
    Completes (memRead s addr n k) := by
  rw [memRead_of_le h]
  exact hk _ _

theorem getCode_completes (s : State) : Completes (getCode s) := by
  have hmax := s.cfg.three_le_frameMax
  exact guard_completes fun _ => memRead_completes (by omega) fun _ _ => complete_completes _ _

theorem getString_completes {s : State} (hu : s.ulen ≤ s.cfg.bodyCap) (off : Nat) :
    Completes (getString off s) :=
  have hcap := s.cfg.bodyCap_add_one
  strScan_completes (by omega) fun _ _ _ => complete_completes _ _

theorem getStringLength_completes {s : State} (hu : s.ulen ≤ s.cfg.bodyCap) (off : Nat) :
    Completes (getStringLength off s) :=
  have hcap := s.cfg.bodyCap_add_one
  strScan_completes (by omega) fun _ _ _ => complete_completes _ _

theorem resolveTag_completes (tag : BitVec 3) (s : State) : Completes (resolveTag tag s) :=
  guard_completes fun _ => complete_completes _ s

/-- An operation that does not call the radio completes wherever `ulen <= BODY_CAP`. -/
theorem exec_completes_of_local {i : Instr} {s : State} (hi : callsRadio i = false)
    (hu : s.ulen ≤ s.cfg.bodyCap) : Completes (exec i s) := by
  have hcap := s.cfg.bodyCap_add_one
  cases i with
  | fbBodyRead =>
    refine guard_completes fun _ => ?_
    exact memRead_completes (by omega) fun _ _ => complete_completes _ _
  | fbBodyWrite | fbResetLength => exact guard_completes fun _ => complete_completes _ _
  | dataGet =>
    unfold exec
    refine tagCheck_completes ?_
    exact memRead_completes (by omega) fun _ _ => complete_completes _ _
  | dataSet | dataGetLength | dataSetFragmented | dataIsFragmented
  | cmdSetCode | cmdSetParam | cmdEnableAckRequest | cmdSetResponseRequested | cmdIsResponseRequested
  | ackSetCode | ackSetResponse | ntcSet =>
    unfold exec
    refine tagCheck_completes ?_
    exact complete_completes _ _
  | cmdGetCode | ackGetCode => exact tagCheck_completes (getCode_completes s)
  | cmdGetParam | ackGetResponse | ntcGet => exact tagCheck_completes (getString_completes hu _)
  | cmdGetParamLength | ackGetResponseLength | ntcGetLength =>
    exact tagCheck_completes (getStringLength_completes hu _)
  | pktResolve => exact resolveTag_completes s.type s
  | hdrTagReserved tag => exact raise_completes _ _ s
  | fbInit | fbSetType | fbGetType | fbSetFlag | fbGetFlag | fbWireLength
  | dataInit | cmdInit | ackInit | ntcInit
  | hdrTagData | hdrTagCommand | hdrTagAck | hdrTagNotice => exact complete_completes _ _
  | _ => cases hi

/-! ## Operations that wait for the radio (10_state.md R30; 70_reset_and_hazards.md R341) -/

/-- This is a radio call made where the radio's replies are as in `s`, and any answer to it completes. -/
def WaitsForRadio (s : State) (o : Result) : Prop :=
  ∃ c u k, o = radioCall c u k ∧ u.radioIn = s.radioIn ∧ ∀ a u', Completes (k a u')

theorem radioCall_waitsForRadio {s : State} {c : RadioCall} {k : RadioAnswer → State → Result}
    (hk : ∀ a u, Completes (k a u)) : WaitsForRadio s (radioCall c s k) :=
  ⟨c, s, k, rfl, rfl, hk⟩

theorem sendFrame_waitsForRadio {s u : State} {w : Nat} (hw : w ≤ u.cfg.frameMax)
    (hin : u.radioIn = s.radioIn) (panId dst : Word16) (v : Nat) :
    WaitsForRadio s (sendFrame panId dst w v u) :=
  ⟨_, _, _, memRead_of_le (by omega), hin, fun _ _ => complete_completes _ _⟩

/-- Every operation that calls the radio waits for it, wherever `ulen <= BODY_CAP`: what it reads before
the call lies in the frame. -/
theorem exec_waitsForRadio {i : Instr} {s : State} (hi : callsRadio i = true)
    (hu : s.ulen ≤ s.cfg.bodyCap) : WaitsForRadio s (exec i s) := by
  have hcap := s.cfg.bodyCap_add_one
  cases i with
  | txSend =>
    refine sendFrame_waitsForRadio ?_ rfl _ _ _
    show s.ulen + 1 ≤ s.cfg.frameMax
    omega
  | txSendData _ _ _ str =>
    have hlen := dataLen_le_bodyCap s.cfg str
    refine sendFrame_waitsForRadio ?_ rfl _ _ _
    show dataLen s.cfg str + 1 ≤ s.cfg.frameMax
    omega
  | txSendCommand _ _ _ str | txSendCommandWithAck _ _ _ str | txSendAck _ _ _ str =>
    have hlen := storedLen_lt s.cfg.cmdRegion_add_one le_rfl str
    refine sendFrame_waitsForRadio ?_ rfl _ _ _
    show storedLen s.cfg.cmdRegion str + 3 ≤ s.cfg.frameMax
    omega
  | txSendNotice _ _ str =>
    have hlen := storedLen_lt s.cfg.noticeRegion_eq (Nat.zero_le _) str
    refine sendFrame_waitsForRadio ?_ rfl _ _ _
    show storedLen s.cfg.noticeRegion str + 2 ≤ s.cfg.frameMax
    omega
  | rxListen => exact radioCall_waitsForRadio fun a u => receive_completes a.received u
  | radioInit | radioBegin | radioEnd | radioRxEnable | radioRxDisable | radioGetSendMode
  | radioSetSendMode | radioSetAckReq | radioSetBroadcastEnb | radioSetPromiscuous
  | radioGetMyAddress => exact radioCall_waitsForRadio fun _ _ => complete_completes _ _
  | _ => cases hi

/-- With a radio that answers, what waits for it completes. -/
theorem WaitsForRadio.completes {s : State} {o : Result} (h : WaitsForRadio s o) (hs : RadioSpeaks s) :
    Completes o := by
  obtain ⟨c, u, k, rfl, hin, hk⟩ := h
  obtain ⟨a, ha⟩ := exists_nextAnswer_of_radioSpeaks (s := u) (by rwa [RadioSpeaks, hin])
  rw [radioCall_of_some ha]
  exact hk a _

/-- With a radio that stays silent, what waits for it never completes. -/
theorem WaitsForRadio.hangs {s : State} {o : Result} (h : WaitsForRadio s o)
    (hs : s.radioIn.head? = some .silent) : o = .fault .radioNeverAnswers := by
  obtain ⟨c, u, k, rfl, hin, -⟩ := h
  obtain ⟨left, hleft⟩ := List.head?_eq_some_iff.1 hs
  exact radioCall_of_none (by simp only [State.nextAnswer, hin, hleft])

/-! ## No command stops the block (60_exceptions.md R302, R303) -/

/-- Every instruction completes wherever `ulen <= BODY_CAP`, unless the radio is silent. -/
theorem exec_completes (i : Instr) {s : State} (hu : s.ulen ≤ s.cfg.bodyCap) (hs : RadioSpeaks s) :
    Completes (exec i s) := by
  cases hi : callsRadio i with
  | false => exact exec_completes_of_local hi hu
  | true => exact (exec_waitsForRadio hi hu).completes hs

/-- Every command completes there, whether its word is legal or not. -/
theorem performCommand_completes (c : Command) {s : State} (hu : s.ulen ≤ s.cfg.bodyCap)
    (hs : RadioSpeaks s) : Completes (performCommand c s) := by
  unfold performCommand
  split
  · exact exec_completes _ hu hs
  · exact raise_completes _ _ s

/-- Every host event completes there. -/
theorem step_completes {s : State} (hu : s.ulen ≤ s.cfg.bodyCap) (hs : RadioSpeaks s) :
    Completes (step s) := by
  match hport : s.port with
  | [] => exact ⟨s, step_of_nothing hport⟩
  | .command c :: left =>
    rw [step_of_command hport]
    exact performCommand_completes c (s := s.withPort left) hu hs
  | .reset :: left => exact ⟨_, step_of_reset hport⟩

/-- Settles O42: every event completes under the bound on `ulen`, and a step keeps the invariant. -/
theorem stepCompletesUnlessTheRadioIsSilent : Obligations.StepCompletesUnlessTheRadioIsSilent := by
  intro s hinv hs
  obtain ⟨t, ht⟩ := step_completes (inv_iff.1 hinv).1.ulen_le hs
  exact ⟨t, ht, stepKeepsTheInvariant s t hinv ht⟩

/-! ## Which status an operation reports (60_exceptions.md R304) -/

/-- An operation completes with OK, or it raises one of its statuses: then the frame is as before, and only
RX_LISTEN has called the radio. -/
theorem Ran.done_or_raised {i : Instr} {s t : State} (h : Ran i s t) :
    (∃ v bytes rs, t.resp = Resp.done v bytes rs) ∨
    ∃ e info, e ∈ mayRaise i ∧ t.resp = Resp.raised e info ∧ t.mem = s.mem ∧ t.ulen = s.ulen ∧
      (t.radioOut = s.radioOut ∨ i = .rxListen) := by
  cases h with
  | done | called | received => exact .inl ⟨_, _, _, rfl⟩
  | raised e info d he => exact .inr ⟨e, info, he, rfl, rfl, rfl, .inl rfl⟩
  | refused c e info he hu =>
    exact .inr ⟨e, info, he, rfl, rfl, rfl, .inr (eq_rxListen_of_radioUse hu)⟩

/-- The table has every status that an operation raises. -/
theorem code_mem_mayReport {i : Instr} {e : Status} (he : e ∈ mayRaise i) :
    e.code.toNat ∈ mayReport i := by
  have hall : (mayRaise i).all (fun e => (mayReport i).elem e.code.toNat) = true := by
    cases i <;> rfl
  exact List.elem_iff.1 (List.all_eq_true.1 hall e he)

/-- The table has OK for every operation that completes with it: all but the reserved header row. -/
theorem ok_mem_mayReport {i : Instr} {s t : State} (h : exec i s = .next t) {v : Word16}
    {bytes : List Byte} {rs : RStat} (hr : t.resp = Resp.done v bytes rs) : 0x00 ∈ mayReport i := by
  cases i with
  | hdrTagReserved tag =>
    rw [raise_next (e := .unknownType) (info := tag.toNat) h] at hr
    exact absurd (congrArg Resp.status hr) (Status.code_ne_ok (e := .unknownType) (by decide))
  | _ => exact List.elem_iff.1 rfl

theorem exec_status_mem_mayReport {i : Instr} {s t : State} (h : exec i s = .next t) :
    t.resp.status.toNat ∈ mayReport i := by
  obtain ⟨v, bytes, rs, hr⟩ | ⟨e, info, he, hr, -⟩ := (exec_next h).done_or_raised
  · rw [hr]
    exact ok_mem_mayReport h hr
  · rw [hr]
    exact code_mem_mayReport he

/-- No decoded operation reports ILLEGAL_OP. -/
theorem illegalOp_notMem_mayReport (i : Instr) : 0x08 ∉ mayReport i := by
  have hnot : (mayReport i).elem 0x08 = false := by cases i <;> rfl
  exact fun h => Bool.eq_false_iff.1 hnot (List.elem_iff.2 h)

/-- Settles O44: a legal command reports a status of its row, where ILLEGAL_OP is not, and an illegal one
raises it. -/
theorem eachStatusComesFromItsOperations : Obligations.EachStatusComesFromItsOperations := by
  refine ⟨fun i s t h => exec_status_mem_mayReport h, fun s t c left hport h => ?_⟩
  cases hdec : decodeCommand c with
  | ok i =>
    rw [step_of_command hport, performCommand_of_ok hdec] at h
    have hstatus := exec_status_mem_mayReport h
    refine iff_of_false (fun h8 => ?_) fun hill => hill i rfl
    rw [h8] at hstatus
    exact illegalOp_notMem_mayReport i hstatus
  | error e =>
    rw [step_of_illegal hport hdec] at h
    rw [raise_next h]
    exact iff_of_true rfl nofun

/-! ## The cause value that a status records (60_exceptions.md R301) -/

theorem decodeRow_of_decodeCommand {c : Command} {i : Instr} (h : decodeCommand c = .ok i) :
    decodeRow c = some i := by
  unfold decodeCommand at h
  split at h
  · cases h
  · split at h
    · cases h
      assumption
    · cases h

/-- The operand that an instruction holds against a capacity (60_exceptions.md R301, "P"). -/
def boundedOperand : Instr → Option Word16
  | .fbBodyRead index => some index
  | .fbBodyWrite index _ => some index
  | .fbResetLength n => some n
  | _ => none

theorem boundedOperand_of_decodeRow {c : Command} {i : Instr} (h : decodeRow c = some i) {p : Word16}
    (hp : boundedOperand i = some p) : p = c.p := by
  unfold decodeRow at h
  split at h <;> cases h <;> cases hp <;> rfl

theorem decodeRow_ne_hdrTagReserved (c : Command) (tag : BitVec 3) (rr frag : Bool) (u : BitVec 3) :
    decodeRow c ≠ some (.hdrTagReserved tag rr frag u) := by
  intro h
  unfold decodeRow at h
  split at h <;> cases h

/-- Where this outcome of performing `c` from `s` completes, it records the cause value of its status. -/
def RecordsCause (s : State) (c : Command) (o : Result) : Prop :=
  ∀ t, o = .next t → CauseOf s c t.resp.status t.resp.info

section
variable {s : State} {c : Command}

/-- OK records no cause. -/
theorem recordsCause_complete (v : Word16) (bytes : List Byte) (rs : RStat) (u : State) :
    RecordsCause s c (complete (.done v bytes rs) u) := by
  intro t h
  rw [complete_next h]
  simp [CauseOf, Resp.done, Status.code]

theorem recordsCause_raise {e : Status} {info : Int} (h : CauseOf s c e.code info) (u : State) :
    RecordsCause s c (raise e info u) := by
  intro t ht
  rw [raise_next ht]
  exact h

/-- Refused by a status with its cause value, or let through to what records its own. -/
theorem recordsCause_guard {p : Prop} [Decidable p] {e : Status} {info : Int} {u : State} {o : Result}
    (he : p → CauseOf s c e.code info) (ho : RecordsCause s c o) :
    RecordsCause s c (if p then raise e info u else o) := by
  split
  · exact recordsCause_raise (he ‹_›) u
  · exact ho

theorem recordsCause_tagCheck {tag : BitVec 3} {k : State → Result} (hk : RecordsCause s c (k s)) :
    RecordsCause s c (tagCheck tag s k) := by
  unfold tagCheck
  split
  · exact hk
  · exact recordsCause_raise (by simp [CauseOf, Status.code]) s

theorem recordsCause_memRead {u : State} {addr n : Nat} {k : List Byte → State → Result}
    (hk : ∀ bytes u', RecordsCause s c (k bytes u')) : RecordsCause s c (memRead u addr n k) :=
  fun t h => hk _ _ t (memRead_next h).2

theorem recordsCause_strScan {off : Nat} {k : List Byte → Nat → State → Result}
    (hk : ∀ bytes n u, RecordsCause s c (k bytes n u)) : RecordsCause s c (strScan off s k) := by
  intro t h
  obtain ⟨-, ⟨-, rfl⟩ | ⟨n, d, -, -, hnext⟩⟩ := strScan_next h
  · simp [CauseOf, Resp.raised, Status.code]
  · exact hk _ _ _ t hnext

theorem recordsCause_getString (off : Nat) : RecordsCause s c (getString off s) :=
  recordsCause_strScan fun _ _ _ => recordsCause_complete _ _ _ _

theorem recordsCause_getStringLength (off : Nat) : RecordsCause s c (getStringLength off s) :=
  recordsCause_strScan fun _ _ _ => recordsCause_complete _ _ _ _

theorem recordsCause_getCode : RecordsCause s c (getCode s) := by
  refine recordsCause_guard (fun hlt => ?_)
    (recordsCause_memRead fun _ _ => recordsCause_complete _ _ _ _)
  have hzero : s.ulen = 0 := by omega
  simp [CauseOf, Status.code, hzero]

theorem recordsCause_resolveTag : RecordsCause s c (resolveTag s.type s) := by
  refine recordsCause_guard (fun htag => ?_) (recordsCause_complete _ _ _ s)
  have hfour : (4 : Int) ≤ s.type.toNat := by exact_mod_cast htag
  simp [CauseOf, Status.code, hfour]

theorem recordsCause_rxListen : RecordsCause s c (exec .rxListen s) := by
  intro t h
  obtain ⟨a, ha, hrecv⟩ := radioCall_next h
  have hanswer : ∃ b, Given s b ∧ a.received.length = b.received.length :=
    ⟨a, given_of_nextAnswer ha, rfl⟩
  obtain ⟨hnone, rfl⟩ | ⟨hmany, rfl⟩ | ⟨-, -, rfl⟩ := receive_next hrecv
  · simpa [CauseOf, Resp.raised, Status.code, hnone] using hanswer
  · rw [State.called_cfg] at hmany
    simpa [CauseOf, Resp.raised, Status.code, hmany] using hanswer
  · exact recordsCause_complete _ _ _ _ _ rfl

/-- An operation that raises no status records none. -/
theorem recordsCause_of_mayRaise_nil {i : Instr} (hi : mayRaise i = []) :
    RecordsCause s c (exec i s) := by
  intro t h
  obtain ⟨v, bytes, rs, hr⟩ | ⟨e, info, he, -⟩ := (exec_next h).done_or_raised
  · rw [hr]
    exact recordsCause_complete v bytes rs s _ rfl
  · rw [hi] at he
    cases he

/-- Every decoded operation records the cause value of its status. -/
theorem exec_recordsCause {i : Instr} (hdec : decodeCommand c = .ok i) :
    RecordsCause s c (exec i s) := by
  have hrow := decodeRow_of_decodeCommand hdec
  have hoperand (p : Word16) (hp : boundedOperand i = some p) := boundedOperand_of_decodeRow hrow hp
  cases i with
  | fbBodyRead index =>
    cases hoperand index rfl
    refine recordsCause_guard (fun _ => by simp [CauseOf, Status.code]) ?_
    exact recordsCause_memRead fun _ _ => recordsCause_complete _ _ _ _
  | fbBodyWrite p | fbResetLength p =>
    cases hoperand p rfl
    refine recordsCause_guard (fun _ => by simp [CauseOf, Status.code]) ?_
    exact recordsCause_complete _ _ _ _
  | dataGet =>
    unfold exec
    refine recordsCause_tagCheck ?_
    exact recordsCause_memRead fun _ _ => recordsCause_complete _ _ _ _
  | dataSet | dataGetLength | dataSetFragmented | dataIsFragmented
  | cmdSetCode | cmdSetParam | cmdEnableAckRequest | cmdSetResponseRequested | cmdIsResponseRequested
  | ackSetCode | ackSetResponse | ntcSet =>
    unfold exec
    refine recordsCause_tagCheck ?_
    exact recordsCause_complete _ _ _ _
  | cmdGetCode | ackGetCode => exact recordsCause_tagCheck recordsCause_getCode
  | cmdGetParam | ackGetResponse | ntcGet =>
    exact recordsCause_tagCheck (recordsCause_getString _)
  | cmdGetParamLength | ackGetResponseLength | ntcGetLength =>
    exact recordsCause_tagCheck (recordsCause_getStringLength _)
  | pktResolve => exact recordsCause_resolveTag
  | rxListen => exact recordsCause_rxListen
  | hdrTagReserved => exact absurd hrow (decodeRow_ne_hdrTagReserved _ _ _ _ _)
  | _ => exact recordsCause_of_mayRaise_nil rfl

/-- An illegal word records its `OP` if that is unassigned, else its reserved byte. -/
theorem causeOf_illegalOp {e : IllegalOp} (hdec : decodeCommand c = .error e) :
    CauseOf s c Status.illegalOp.code e.info := by
  by_cases hop : Unassigned c.op.toNat
  · cases hdec.symm.trans (decodeCommand_of_unassigned hop)
    simp [CauseOf, Status.code, hop, IllegalOp.info]
  · have hres : c.reserved ≠ 0 := fun hres => by
      obtain ⟨i, hi⟩ := exists_decodeCommand_iff.2 ⟨hop, hres⟩
      cases hi.symm.trans hdec
    cases hdec.symm.trans (decodeCommand_of_reserved hop hres)
    simp [CauseOf, Status.code, hop, IllegalOp.info]

/-- Performing a command records the cause value of its status, whether its word is legal or not. -/
theorem performCommand_recordsCause (s : State) (c : Command) :
    RecordsCause s c (performCommand c s) := by
  unfold performCommand
  split
  case h_1 i hdec => exact exec_recordsCause hdec
  case h_2 e hdec => exact recordsCause_raise (causeOf_illegalOp hdec) s

end

/-! ## A raised status leaves the frame (60_exceptions.md R303) -/

/-- Performing a command completes with OK, or it raises a status: then the frame is as before, and only
RX_LISTEN has called the radio. -/
theorem performCommand_done_or_raised {c : Command} {s t : State} (h : performCommand c s = .next t) :
    (∃ v bytes rs, t.resp = Resp.done v bytes rs) ∨
    ∃ e info, t.resp = Resp.raised e info ∧ t.mem = s.mem ∧ t.ulen = s.ulen ∧
      (t.radioOut = s.radioOut ∨ decodeCommand c = .ok .rxListen) := by
  cases hdec : decodeCommand c with
  | ok i =>
    rw [performCommand_of_ok hdec] at h
    obtain hdone | ⟨e, info, -, hr, hm, hu, hout⟩ := (exec_next h).done_or_raised
    · exact .inl hdone
    · exact .inr ⟨e, info, hr, hm, hu, hout.imp_right fun hi => by rw [hi]⟩
  | error e =>
    rw [performCommand, hdec] at h
    rw [raise_next h]
    exact .inr ⟨_, _, rfl, rfl, rfl, .inl rfl⟩

/-- Settles O43: the command records its cause from the state it is performed in, which has the frame and
the radio of the state before the step. -/
theorem errorsLeaveTheFrameAsItWas : Obligations.ErrorsLeaveTheFrameAsItWas := by
  intro s t c left hport h
  rw [step_of_command hport] at h
  refine ⟨performCommand_recordsCause (s.withPort left) c t h, fun hstatus => ?_⟩
  obtain ⟨v, bytes, rs, hr⟩ | ⟨e, info, hr, hm, hu, hout⟩ := performCommand_done_or_raised h
  · exact absurd (congrArg Resp.status hr) hstatus
  · rw [hr]
    exact ⟨hm, hu, rfl, rfl, rfl, hout⟩

end Sys2Proof.Machine
end

section
/-! PROOFS of the statements of 70_reset_and_hazards.md: the reset event, the radio that never answers, and interleaved commands. -/

namespace Sys2Proof.Machine

open Claims

/-- The empty memory has every body byte UNWRITTEN (10_state.md R24). -/
theorem Memory.read_nil_body (i : Nat) : Memory.read [] (1 + i) = none := by
  simp [Memory.read, Memory.lookup, Memory.unlisted]

/-- Settles O4: the reset event empties the memory and keeps everything outside the block. -/
theorem resetEventRestoresTheEmptyFrame : Obligations.ResetEventRestoresTheEmptyFrame :=
  fun _ _ hport => ⟨_, step_of_reset hport, ⟨rfl, rfl, rfl, rfl⟩, rfl, rfl, Memory.read_nil_body⟩

/-- Settles O38: an operation that calls the radio waits for it, and waits forever for a silent one. -/
theorem silentRadioNeverCompletes : Obligations.SilentRadioNeverCompletes :=
  fun _ _ hi hs hu => (exec_waitsForRadio hi hu).hangs hs

/-- Settles O55: NTC_INIT stamps its tag over that of CMD_INIT, so CMD_SET_PARAM finds a Notice frame and
raises TYPE_MISMATCH. -/
theorem interleavedInitsLoseTheFirstFrame : Obligations.InterleavedInitsLoseTheFirstFrame := by
  intro s str
  have htype : (variantInit 3 (variantInit 1 s)).type = 3 := variantInit_type 3 _
  obtain ⟨t, ht, ⟨hcfg, hport, hin, hout⟩, ⟨hread, hulen⟩, hraises⟩ :=
    codecAccessorsCheckTheTag (.cmdSetParam str) 1 rfl (variantInit 3 (variantInit 1 s))
      (by rw [htype]; decide)
  refine ⟨t, ?_, ?_, hulen, fun i => ?_, ⟨hcfg, hport, hin, hout⟩, ?_⟩
  · rw [execAll_cons_of_complete (t := variantInit 1 s) rfl,
      execAll_cons_of_complete (t := variantInit 3 (variantInit 1 s)) rfl]
    simp only [execAll, ht]
  · rw [State.hdr, hread]
    exact variantInit_hdr 3 _
  · rw [State.body, hread]
    exact (variantInit_body 3 _ i).trans (variantInit_body 1 s i)
  · rwa [htype] at hraises

end Sys2Proof.Machine
end

section
/-! PROOFS of the statement of a placed table word: it is what the next step runs. -/

namespace Sys2Proof.Machine

/-- A command presented before everything else is what the next step performs, in the state before it was
presented. -/
theorem step_presentCommand (c : Command) (s : State) :
    step (presentCommand c s) = performCommand c s := rfl

/-- A table word of 64 bits is read as a command with `S` empty (log entry 13). -/
theorem decodeCommand_of_decodeTableWord {w : Nat} {i : Instr} (h : decodeTableWord 64 w = some i) :
    decodeCommand ⟨BitVec.ofNat 64 w, []⟩ = .ok i := by
  unfold decodeTableWord at h
  rw [if_neg (by decide)] at h
  split at h
  · cases hdec : decodeCommand ⟨BitVec.ofNat 64 w, []⟩ with
    | ok j => rw [hdec] at h; cases h; rfl
    | error e => rw [hdec] at h; cases h
  · cases h

/-- A table word of 8 bits is read as a header byte (log entry 13). -/
theorem decodeHeader_of_decodeTableWord {w : Nat} {i : Instr} (h : decodeTableWord 8 w = some i) :
    decodeHeader (BitVec.ofNat 8 w) = i := by
  unfold decodeTableWord at h
  rw [if_pos le_rfl] at h
  split at h
  · exact Option.some_inj.1 h
  · cases h

theorem decodeCommand_resolveCommand : decodeCommand resolveCommand = .ok .pktResolve := rfl

/-- Settles O6: a command row is performed as presented, and a header row is what PKT_RESOLVE answers for
the held header. -/
theorem placedTableWordRunsNext : Obligations.PlacedTableWordRunsNext := by
  refine ⟨fun s w i h => ?_, fun s w i h => ?_⟩
  · have hplaced : s.withFetchWord 64 w = presentCommand ⟨BitVec.ofNat 64 w, []⟩ s := rfl
    rw [hplaced, step_presentCommand, performCommand_of_ok (decodeCommand_of_decodeTableWord h)]
  · have hplaced : s.withFetchWord 8 w =
        presentCommand resolveCommand (s.setHdr (BitVec.ofNat 8 w)) := rfl
    rw [hplaced, step_presentCommand, performCommand_of_ok decodeCommand_resolveCommand,
      exec_pktResolve, State.setHdr_hdr, ← exec_decodeHeader, decodeHeader_of_decodeTableWord h]

end Sys2Proof.Machine
end
